-- ==== Sys2Proof/Word.lean ====
section
/-! DEFINITION. The word types of the Frame Codec: a byte (spec 00 section 4, `BYTE_W` = 8), the
16-bit fields of a frame (R26), the `frame` port and the `fbits` port (R16). Arithmetic on a byte is
unsigned and wraps modulo 256 (R63), which is `BitVec` arithmetic. -/

namespace Sys2Proof

/-- A byte: 8 bits, unsigned, 0 to 255 (spec 00 section 5). -/
abbrev Byte := BitVec 8

/-- A 16-bit field: register address, calibration interval or concentration (R26). -/
abbrev Half := BitVec 16

/-- The 40 bits of the `frame` output port, five byte positions (R16, R17). -/
abbrev FrameBits := BitVec 40

/-- The 32 bits of the `fbits` output port (R16). -/
abbrev FloatBits := BitVec 32

end Sys2Proof
end

