-- ==== Sys2Proof/Config.lean ====
section
/-! DEFINITION. What an implementer or an integrator fixes: the block's two OPEN parameters
(`BUF_MAX`, decision D9; `FLOAT_FMT`, decision D12), the one free value (the bit pattern of a format
other than binary32), and the environment's configuration (decision D21, spec 00 section 4). -/

namespace Sys2Proof

/-- `FLOAT_FMT` (spec 00 section 4): IEEE 754 binary32 by default; any other format the implementer
names is told from it by a tag of the model's own. -/
inductive FloatFmt where
  | binary32
  | other (tag : Nat)
deriving DecidableEq, Repr

/-- The block's OPEN parameters. They are fixed for one realisation of the block and no operation
changes them; every statement of the model quantifies over them (assumptions 3 and 4). -/
structure Params where
  /-- `BUF_MAX`: capacity in bytes of the `buf` input port; default 5, any value of 5 or more (D9). -/
  bufMax : Nat
  /-- `FLOAT_FMT`: the format DEC.WIDEN answers in (D12). -/
  floatFmt : FloatFmt
deriving DecidableEq, Repr

/-- The defaults the spec gives: `BUF_MAX` = 5 and binary32. -/
def Params.standard : Params := { bufMax := 5, floatFmt := .binary32 }

/-- `LEN_W` (R15): the number of bits needed to write `BUF_MAX`. -/
def Params.lenW (p : Params) : Nat := p.bufMax.log2 + 1

/-- FREE VALUE (assumption 4, DESIGN CHOICE): the 32-bit pattern DEC.WIDEN drives when `FLOAT_FMT` is a
format other than binary32. The spec gives no pattern for it (D12, U13), so nothing constrains it. -/
opaque Config.otherFloatBits : Nat → Half → FloatBits

/-- The environment's configuration (spec 00 section 4, D21): "supplied once before first operation and
treated as immutable thereafter". None of it is read by the block (R4). -/
structure EnvConfig where
  /-- `DEVICE_ADDR`, the 7-bit bus address of the peripheral (R30). -/
  deviceAddr : BitVec 7
  /-- `CAL_ENABLE`, the Calibration Intent's boolean. -/
  calEnable : Bool
  /-- `CAL_INTERVAL_S`, seconds; a value above 65535 is no operand of the block (R79). -/
  calIntervalS : Nat
  /-- `POLL_INTERVAL_S`, seconds. -/
  pollIntervalS : Nat
  /-- `RETRY_CEILING`, a count. -/
  retryCeiling : Nat
  /-- `RETRY_DELAY_MS`, milliseconds. -/
  retryDelayMs : Nat
  /-- `SETTLE_DELAY_MS`, milliseconds. -/
  settleDelayMs : Nat
deriving DecidableEq, Repr

end Sys2Proof
end

