-- ==== Sys2Proof/Syntax.lean ====
section
/-! DEFINITION. The operations of the block: one constructor per row of `spec/opcode_table.json`, the
two reserved codes among them (R52, R54). An operation has no operand of its own in its encoding (R53:
"There are no immediates"); its operands stand on input ports, which `Machine/Operands.lean` reads. -/

namespace Sys2Proof

/-- The 14 operations and the 2 reserved codes of the `op` port, in the order of R52's table. -/
inductive Instr where
  /-- `0x0`, reserved (R54). -/
  | reserved0
  /-- `0x1`, CSUM.STEP (R61). -/
  | csumStep
  /-- `0x2`, CSUM.GEN (R62). -/
  | csumGen
  /-- `0x3`, VAL.CHK (R86). -/
  | valChk
  /-- `0x4`, VAL.FRAME (R87). -/
  | valFrame
  /-- `0x5`, ENC.BUILD3 (R70). -/
  | encBuild3
  /-- `0x6`, ENC.BUILD4 (R71). -/
  | encBuild4
  /-- `0x7`, ENC.MEAS (R72). -/
  | encMeas
  /-- `0x8`, ENC.RDCTRL (R73). -/
  | encRdctrl
  /-- `0x9`, ENC.WRCTRL (R74). -/
  | encWrctrl
  /-- `0xA`, ENC.WRCTRLP (R77). -/
  | encWrctrlp
  /-- `0xB`, ENC.CALINT (R78). -/
  | encCalint
  /-- `0xC`, DEC.MEAS (R89). -/
  | decMeas
  /-- `0xD`, DEC.CTRL (R91). -/
  | decCtrl
  /-- `0xE`, DEC.WIDEN (R93). -/
  | decWiden
  /-- `0xF`, reserved (R54). -/
  | reservedF
deriving DecidableEq, Repr

end Sys2Proof
end

