-- ==== Sys2Proof/WellFormed.lean ====
section
/-! DEFINITION. What the encoding and the port list ask of a term before it means anything: an op code
that fits the 4-bit `op` port (R51), parameters the spec admits (D9), operands in the range an
operation admits (R55), and an environment configuration the block has operands for (R79). -/

namespace Sys2Proof

/-- The op code of each operation (R52). -/
def Instr.opCode : Instr → Nat
  | .reserved0 => 0x0
  | .csumStep => 0x1
  | .csumGen => 0x2
  | .valChk => 0x3
  | .valFrame => 0x4
  | .encBuild3 => 0x5
  | .encBuild4 => 0x6
  | .encMeas => 0x7
  | .encRdctrl => 0x8
  | .encWrctrl => 0x9
  | .encWrctrlp => 0xA
  | .encCalint => 0xB
  | .decMeas => 0xC
  | .decCtrl => 0xD
  | .decWiden => 0xE
  | .reservedF => 0xF

/-- `OP_W` = 4 (D2): an op code is a number below 16. -/
def opCodeFits (code : Nat) : Bool := decide (code < 16)

/-- An instruction is well formed when its op code fits the `op` port. The encoding has no operand
field (R53), so there is nothing else to ask of it; every constructor passes. -/
def Instr.wellFormed (i : Instr) : Bool := opCodeFits i.opCode

/-- R55: is the value on `len` in the range the operation admits? Operations that do not read `len`
admit every value of it. -/
def Instr.lenAdmitted (i : Instr) (bufMax len : Nat) : Bool :=
  match i with
  | .csumGen | .valChk => decide (len ≤ bufMax)
  | .valFrame => decide (1 ≤ len ∧ len ≤ bufMax)
  | .decMeas => decide (len = 4)
  | .decCtrl => decide (len = 3)
  | .csumStep | .encBuild3 | .encBuild4 | .encMeas | .encRdctrl | .encWrctrl | .encWrctrlp
  | .encCalint | .decWiden | .reserved0 | .reservedF => true

/-- D9: "any value ≥ 5 allowed". -/
def Params.wellFormed (p : Params) : Bool := decide (5 ≤ p.bufMax)

/-- R79, D13: a model takes `CAL_INTERVAL_S ≤ 65535` as a premise. -/
def EnvConfig.wellFormed (c : EnvConfig) : Bool := decide (c.calIntervalS ≤ 65535)

end Sys2Proof
end

