-- ==== Sys2Proof/Decode.lean ====
section
/-! DEFINITION. The decoder and the encoder of the operation select (R51, R52). `decodeOp` is the
block's own decoder, total on the 4-bit `op` port. `decode` reads a list of bytes, the form in which a
table word is laid out, and refuses by name what no value of the port can be. -/

namespace Sys2Proof

/-- R52, R54: the operation a value of the `op` port selects. Every one of the sixteen values selects
one. -/
def decodeOp (op : BitVec 4) : Instr :=
  match op.toNat with
  | 0x0 => .reserved0
  | 0x1 => .csumStep
  | 0x2 => .csumGen
  | 0x3 => .valChk
  | 0x4 => .valFrame
  | 0x5 => .encBuild3
  | 0x6 => .encBuild4
  | 0x7 => .encMeas
  | 0x8 => .encRdctrl
  | 0x9 => .encWrctrl
  | 0xA => .encWrctrlp
  | 0xB => .encCalint
  | 0xC => .decMeas
  | 0xD => .decCtrl
  | 0xE => .decWiden
  | _ => .reservedF

/-- Why a list of bytes is no operation select. -/
inductive DecodeError where
  /-- There is no byte to read. -/
  | noByte
  /-- The byte is above `0x0F`: no value of the 4-bit `op` port (R51; assumption 7). -/
  | notAnOpCode (b : Byte)
deriving DecidableEq, Repr

/-- Reads one operation select from a list of bytes and gives the rest of the list back. The select is
bits 3 to 0 of its byte; bits 7 to 4 are outside the port and must be 0. -/
def decode : List Byte → Except DecodeError (Instr × List Byte)
  | [] => .error .noByte
  | b :: rest =>
    if opCodeFits b.toNat then .ok (decodeOp (BitVec.ofNat 4 b.toNat), rest)
    else .error (.notAnOpCode b)

/-- The value of the `op` port that selects an operation (R52). -/
def encodeOp (i : Instr) : BitVec 4 := BitVec.ofNat 4 i.opCode

/-- The bytes of an operation select: its op code in bits 3 to 0 of one byte. -/
def encode (i : Instr) : List Byte := [BitVec.ofNat 8 i.opCode]

/-- The low `n` bytes of a number, the least significant first. -/
def layBytes : Nat → Nat → List Byte
  | 0, _ => []
  | n + 1, w => BitVec.ofNat 8 w :: layBytes n (w / 256)

/-- The instruction the decoder reads from a table word of `nbits` bits: the word laid out byte by byte,
at least one byte, bits above `nbits` taken as 0. -/
def decodeTableWord (nbits w : Nat) : Option Instr :=
  match decode (layBytes (max 1 ((nbits + 7) / 8)) (w % 2 ^ nbits)) with
  | .ok (i, _) => some i
  | .error _ => none

end Sys2Proof
end

