-- ==== Sys2Proof/Machine/State.lean ====
section
/-! DEFINITION. State as plain data. The block itself stores nothing (R10); what a step reads and writes
is its ports (R14 to R18). So the state is the values on the input ports, which the environment holds
(R136), the values on the output ports, which the last step drove, and the block's two OPEN parameters,
which no step changes (assumptions 1 and 3). The block has no general register, no program counter, no
memory, no mode and no control register (R10, R11, R12, R29, R107). -/

namespace Sys2Proof.Machine

/-- The four classes of the 2-bit `outcome` port (R100). -/
inductive OutcomeCode where
  | ok
  | notReady
  | checksumMismatch
  | illegal
deriving DecidableEq, Repr

/-- The input ports (R15). -/
structure InPorts where
  /-- Operation select, 4 bits (R51). -/
  op : BitVec 4
  /-- Byte-sequence operand, `BUF_MAX` bytes; element `i` is byte `i` of the port (R17). -/
  buf : List Byte
  /-- Number of valid bytes in `buf`, `LEN_W` bits. -/
  len : Nat
  /-- Running sum so far (CSUM.STEP). -/
  acc : Byte
  /-- Next data byte (CSUM.STEP). -/
  d : Byte
  /-- The supplied checksum byte (VAL.CHK). -/
  chk : Byte
  /-- Byte 0 of the frame to build. -/
  opcode : Byte
  /-- Register address, sent high byte first. -/
  reg : Half
  /-- Value byte. -/
  val : Byte
  /-- Desired state of the calibration bit, 1 = enabled. -/
  desired : Bool
  /-- Calibration interval in seconds. -/
  interval : Half
  /-- Integer to widen. -/
  v16 : Half
deriving DecidableEq, Repr

/-- The output ports (R16). The status flags `ok`, `ready`, `abc` and `outcome` are among them: they are
outputs of the operation that computes them and are not stored by the block (R13). -/
structure OutPorts where
  /-- The built command frame, five byte positions. -/
  frame : FrameBits
  /-- Number of valid bytes in `frame`. -/
  frameLen : BitVec 3
  /-- The checksum computed or appended. -/
  sum : Byte
  /-- Computed checksum equals supplied checksum. -/
  ok : Bool
  /-- Bit 0 of measurement response byte 0. -/
  ready : Bool
  /-- Bit 1 of control response byte 1, gated. -/
  abc : Bool
  /-- Decoded concentration, gated. -/
  value : Half
  /-- Control response byte 0, gated. -/
  reg0 : Byte
  /-- Control response byte 1, gated. -/
  reg1 : Byte
  /-- The register byte after patching. -/
  patched : Byte
  /-- Bit pattern of the widened value. -/
  fbits : FloatBits
  /-- The outcome class. -/
  outcome : OutcomeCode
deriving DecidableEq, Repr

/-- Every output port 0; `outcome` 0 is `OK` (R18, R100). -/
def OutPorts.zero : OutPorts :=
  { frame := 0, frameLen := 0, sum := 0, ok := false, ready := false, abc := false, value := 0,
    reg0 := 0, reg1 := 0, patched := 0, fbits := 0, outcome := .ok }

/-- The state a step works on. -/
structure State where
  /-- The realisation's OPEN parameters; no step changes them. -/
  params : Params
  /-- What the environment drives on the input ports; no step changes it (R136). -/
  inp : InPorts
  /-- What the block drives on the output ports since the last step. -/
  out : OutPorts
deriving DecidableEq, Repr

/-- A fault stops the machine. The spec gives the block none: "Nothing in the block is `fault` or
`stuck`: every operation completes with an outcome for every input" (spec 93; R18, R102). The type has
no constructor, so that no step can answer one (assumption 11: unsafe only if a realisation could stop,
which the spec excludes). -/
inductive Fault where
deriving DecidableEq, Repr

/-- A refusal says that the model has no meaning for an instruction. -/
inductive Refusal where
  /-- Raised by an arm of `exec` whose instruction has no meaning yet; no arm does. Safe: the model
  stops where the hardware goes on. -/
  | notModelled (mnemonic : String)
deriving DecidableEq, Repr

/-- The input ports at reset: all zero (assumption 2, DESIGN CHOICE: the spec gives them no value; an
`op` of 0 is what it calls an undriven or cleared `op`, R54). -/
def InPorts.reset : InPorts :=
  { op := 0, buf := [0, 0, 0, 0, 0], len := 0, acc := 0, d := 0, chk := 0, opcode := 0, reg := 0,
    val := 0, desired := false, interval := 0, v16 := 0 }

/-- R19, R130: the block has nothing to reset. After power-up its outputs are the function of its inputs;
with `op` 0, a reserved code, every output is 0 except `outcome`, which is `ILLEGAL`. -/
def State.reset : State :=
  { params := Params.standard, inp := InPorts.reset, out := { OutPorts.zero with outcome := .illegal } }

end Sys2Proof.Machine
end

