-- ==== Sys2Proof/Machine/Ops.lean ====
section
/-! DEFINITION. The operations the meanings share: the checksum (R60, R63), the byte split of a 16-bit
field (R26, R46), the frame builders (R70, R71, R75), the calibration-bit patch (R76), the packing of a
byte sequence into a port (R17), and how an operation answers on the output ports (R18, R55).

There is no exception to take and none to return from (R102, R106): an outcome other than `OK` is a
result on a port. `answerIllegal` is the one shared operation for an invocation that is malformed. There
are no memory operations (R29). -/

namespace Sys2Proof.Machine

/-! ### The function level -/

/-- R61: one step of the checksum; the carry out of bit 7 is discarded (R63). -/
def csumAdd (sum b : Byte) : Byte := sum + b

/-- R60's loop: the truncated 8-bit sum of a byte sequence of any length, starting from 0. -/
def csum (bytes : List Byte) : Byte := bytes.foldl csumAdd 0

/-- R88, R86: `validate` of the data bytes against the supplied checksum byte; no byte is skipped. -/
def validate (data : List Byte) (chk : Byte) : Bool := csum data == chk

/-- Bits 15 to 8 of a 16-bit field, which are sent first (R26, R46). -/
def hiByte (v : Half) : Byte := v.extractLsb' 8 8

/-- Bits 7 to 0 of a 16-bit field (R46). -/
def loByte (v : Half) : Byte := v.extractLsb' 0 8

/-- R26, R46: the 16-bit value `hi * 256 + lo`. -/
def bigEndian (hi lo : Byte) : Half := hi ++ lo

/-- R75: data bytes with their recomputed checksum as the last byte. -/
def withChecksum (data : List Byte) : List Byte := data ++ [csum data]

/-- The bytes of a command that its checksum covers (R40, R41, R47): opcode, register high, register low
and, in format C4, the value. -/
def commandData (opcode : Byte) (reg : Half) (value : Option Byte) : List Byte :=
  [opcode, hiByte reg, loByte reg] ++ value.toList

/-- `build_command(opcode, register, value?)` (R70, R71): format C3 without a value, C4 with one. -/
def buildCommand (opcode : Byte) (reg : Half) (value : Option Byte) : List Byte :=
  withChecksum (commandData opcode reg value)

/-- The measure command's bytes (R45, R72). -/
def measureFrame : List Byte := [0x22, 0x00, 0x08, 0x2A]

/-- The read-control command's bytes (R45, R73). -/
def readControlFrame : List Byte := [0x41, 0x00, 0x3E, 0x7F]

/-- The checksum of the write-control command for a register byte (R74). -/
def writeControlSum (v : Byte) : Byte := 0x6F + v

/-- The write-control command for a register byte (R45, R74). -/
def writeControlFrame (v : Byte) : List Byte := [0x31, 0x00, 0x3E, v, writeControlSum v]

/-- The calibration-interval write, format CI, which has no checksum byte (R42, R78). -/
def calIntervalFrame (interval : Half) : List Byte := [0x01, 0x40, hiByte interval, loByte interval]

/-- R76: bit 1 forced to the desired state, every other bit kept. -/
def patch (v : Byte) (desired : Bool) : Byte := if desired then v ||| 0x02 else v &&& 0xFD

/-! ### Packing (R17) -/

/-- The number whose bits `[8i+7:8i]` are byte `i` of the sequence. -/
def packNat : List Byte → Nat
  | [] => 0
  | b :: bs => b.toNat + 256 * packNat bs

/-- The `frame` port for a byte sequence of at most five bytes; positions beyond its end are 0. -/
def packFrame (bytes : List Byte) : FrameBits := BitVec.ofNat 40 (packNat bytes)

/-- Byte `i` of the `frame` port. -/
def frameByte (f : FrameBits) (i : Nat) : Byte := f.extractLsb' (8 * i) 8

/-- The first `n` bytes of the `frame` port, as the environment sends them (R25). -/
def frameBytes (f : FrameBits) (n : Nat) : List Byte := (List.range n).map (frameByte f)

/-- The `buf` port as the `8 * BUF_MAX` bits it is (R15, R17). -/
def bufPort (p : Params) (inp : InPorts) : BitVec (8 * p.bufMax) := BitVec.ofNat _ (packNat inp.buf)

/-! ### Ports -/

/-- The value on the `op` port: what the next step performs (R51). -/
def fetchOp (s : State) : BitVec 4 := s.inp.op

/-- The environment puts an op code on the `op` port (R11: which operation is its choice). -/
def placeOp (s : State) (op : BitVec 4) : State := { s with inp := { s.inp with op := op } }

/-- The low four bits of a table word below bit `nbits`: the `op` port's part of it (R51). -/
def opOfWord (nbits w : Nat) : BitVec 4 := BitVec.ofNat 4 (w % 2 ^ nbits)

/-- The environment puts values on all input ports between two invocations (R136). -/
def presentInputs (s : State) (inp : InPorts) : State := { s with inp := inp }

/-- R14: the output ports take the values of the selected operation; nothing else changes. -/
def drive (s : State) (out : OutPorts) : State := { s with out := out }

/-- An operation delivers its results and the step is over (R106: in the same invocation). -/
def answer (s : State) (out : OutPorts) : Host.Outcome State Fault Refusal := .next (drive s out)

/-- R54, R55: a malformed invocation gives `ILLEGAL` and every other output 0. -/
def illegalOut : OutPorts := { OutPorts.zero with outcome := .illegal }

/-- The one way an invocation is turned away (R54, R55). -/
def answerIllegal (s : State) : Host.Outcome State Fault Refusal := answer s illegalOut

/-- The outputs of an ENC operation: the frame, its length and the checksum appended (R16). -/
def frameOut (bytes : List Byte) (sum : Byte) : OutPorts :=
  { OutPorts.zero with
    frame := packFrame bytes, frameLen := BitVec.ofNat 3 bytes.length, sum := sum }

end Sys2Proof.Machine
end

