-- ==== Sys2Proof/Machine/Operands.lean ====
section
/-! DEFINITION. The operand forms (R53): which input ports each operation reads, which output ports it
drives (R16, R52), and the reading of the byte-sequence operand (R17). -/

namespace Sys2Proof.Machine

/-- The names of the input ports an operation may read besides `op` (R15). -/
inductive InPort where
  | buf | len | acc | d | chk | opcode | reg | val | desired | interval | v16
deriving DecidableEq, Repr

/-- The names of the output ports (R16). -/
inductive OutPort where
  | frame | frameLen | sum | ok | ready | abc | value | reg0 | reg1 | patched | fbits | outcome
deriving DecidableEq, Repr

/-- The operand formats of R53; `none` is the reserved codes' "-" of the opcode table. -/
inductive OperandFormat where
  | A | B | BC | E3 | E4 | N | V | VP | I | W | none
deriving DecidableEq, Repr

/-- R53: the input ports a format reads. -/
def OperandFormat.reads : OperandFormat → List InPort
  | .A => [.acc, .d]
  | .B => [.buf, .len]
  | .BC => [.buf, .len, .chk]
  | .E3 => [.opcode, .reg]
  | .E4 => [.opcode, .reg, .val]
  | .N => []
  | .V => [.val]
  | .VP => [.val, .desired]
  | .I => [.interval]
  | .W => [.v16]
  | .none => []

/-- R52: the operand format of each operation. -/
def operandFormat : Instr → OperandFormat
  | .reserved0 => .none
  | .csumStep => .A
  | .csumGen => .B
  | .valChk => .BC
  | .valFrame => .B
  | .encBuild3 => .E3
  | .encBuild4 => .E4
  | .encMeas => .N
  | .encRdctrl => .N
  | .encWrctrl => .V
  | .encWrctrlp => .VP
  | .encCalint => .I
  | .decMeas => .B
  | .decCtrl => .B
  | .decWiden => .W
  | .reservedF => .none

/-- R52: the output ports each operation names; every operation also drives `outcome`. For ENC.CALINT
`sum` is named with the value 0 (R78). -/
def resultPorts : Instr → List OutPort
  | .reserved0 => [.outcome]
  | .csumStep => [.sum, .outcome]
  | .csumGen => [.sum, .outcome]
  | .valChk => [.ok, .sum, .outcome]
  | .valFrame => [.ok, .sum, .outcome]
  | .encBuild3 => [.frame, .frameLen, .sum, .outcome]
  | .encBuild4 => [.frame, .frameLen, .sum, .outcome]
  | .encMeas => [.frame, .frameLen, .sum, .outcome]
  | .encRdctrl => [.frame, .frameLen, .sum, .outcome]
  | .encWrctrl => [.frame, .frameLen, .sum, .outcome]
  | .encWrctrlp => [.frame, .frameLen, .sum, .patched, .outcome]
  | .encCalint => [.frame, .frameLen, .outcome]
  | .decMeas => [.ready, .ok, .sum, .value, .outcome]
  | .decCtrl => [.ok, .sum, .reg0, .reg1, .abc, .outcome]
  | .decWiden => [.fbits, .outcome]
  | .reservedF => [.outcome]

/-- Two sets of input values agree on one port. A byte of `buf` at index `len` and beyond is ignored
(R17), so `buf` is compared on its first `len` bytes. -/
def InPort.agree (a b : InPorts) : InPort → Bool
  | .buf => a.buf.take a.len == b.buf.take b.len
  | .len => a.len == b.len
  | .acc => a.acc == b.acc
  | .d => a.d == b.d
  | .chk => a.chk == b.chk
  | .opcode => a.opcode == b.opcode
  | .reg => a.reg == b.reg
  | .val => a.val == b.val
  | .desired => a.desired == b.desired
  | .interval => a.interval == b.interval
  | .v16 => a.v16 == b.v16

/-- Is an output port 0 (R18)? -/
def OutPort.isZero (o : OutPorts) : OutPort → Bool
  | .frame => o.frame == 0
  | .frameLen => o.frameLen == 0
  | .sum => o.sum == 0
  | .ok => o.ok == false
  | .ready => o.ready == false
  | .abc => o.abc == false
  | .value => o.value == 0
  | .reg0 => o.reg0 == 0
  | .reg1 => o.reg1 == 0
  | .patched => o.patched == 0
  | .fbits => o.fbits == 0
  | .outcome => o.outcome == .ok

/-- `buf[0..n-1]` (R17). -/
def bufFirst (s : State) (n : Nat) : List Byte := s.inp.buf.take n

/-- `buf[i]` (R17). A `buf` shorter than the port reads 0 there (assumption 9). -/
def bufByte (s : State) (i : Nat) : Byte := s.inp.buf.getD i 0

/-- Formats B and BC: the first `len` bytes of `buf`. -/
def bufData (s : State) : List Byte := bufFirst s s.inp.len

/-- R87: every byte of the frame operand but the last. -/
def frameData (s : State) : List Byte := bufFirst s (s.inp.len - 1)

/-- R87: the last byte of the frame operand, its checksum position. -/
def frameChecksum (s : State) : Byte := bufByte s (s.inp.len - 1)

end Sys2Proof.Machine
end

