-- ==== Sys2Proof/Machine/Csum.lean ====
section
/-! DEFINITION. Unit CSUM, the 8-bit checksum generator: CSUM.STEP and CSUM.GEN (spec 40). -/

namespace Sys2Proof.Machine

/-- CSUM.STEP (R61): `sum <- (acc + d) mod 256`. The accumulator lives in the environment. -/
def execCsumStep (s : State) : Host.Outcome State Fault Refusal :=
  answer s { OutPorts.zero with sum := csumAdd s.inp.acc s.inp.d }

/-- CSUM.GEN (R62): the checksum of the first `len` bytes of `buf`; `len > BUF_MAX` is `ILLEGAL`. -/
def execCsumGen (s : State) : Host.Outcome State Fault Refusal :=
  if s.inp.len ≤ s.params.bufMax then answer s { OutPorts.zero with sum := csum (bufData s) }
  else answerIllegal s

end Sys2Proof.Machine
end

