-- ==== Sys2Proof/Machine/Flags.lean ====
section
/-! DEFINITION. The flag computations (R13): `ok`, `ready`, `abc`, and the `outcome` they lead to with
its order of priority (R103) and its 2-bit code (R100). -/

namespace Sys2Proof.Machine

/-- `ok`: the recomputed checksum equals the supplied one (R13, R86). -/
def okFlag (computed supplied : Byte) : Bool := computed == supplied

/-- `ready`: bit 0 of the status byte; bits 7 to 1 are not tested (R28, R49, R89). -/
def readyFlag (status : Byte) : Bool := status.getLsbD 0

/-- The calibration-enabled bit: bit 1 of control-register byte 1 (R28, R44, R91). -/
def abcBit (reg1 : Byte) : Bool := reg1.getLsbD 1

/-- The outcome of a checksum test (R86, R87, R91). -/
def checkOutcome (ok : Bool) : OutcomeCode := if ok then .ok else .checksumMismatch

/-- The outcome of a measurement response: readiness is tested before the checksum (R89, R103). -/
def measOutcome (ready ok : Bool) : OutcomeCode := if ready then checkOutcome ok else .notReady

/-- R100: the number on the 2-bit `outcome` port. -/
def OutcomeCode.bits : OutcomeCode → BitVec 2
  | .ok => 0
  | .notReady => 1
  | .checksumMismatch => 2
  | .illegal => 3

end Sys2Proof.Machine
end

