-- ==== Sys2Proof/Machine/Float.lean ====
section
/-! DEFINITION. The widening of the 16-bit concentration to floating point (R93) and the value a
binary32 bit pattern stands for. The binary32 layout is the spec's own passage from general knowledge
(spec 93, G2; assumption 5). -/

namespace Sys2Proof.Machine

/-- The index of the highest set bit of `v` among bits `k` to 0; 0 when none of bits `k` to 1 is set. -/
def topBit (v : Half) : Nat → Nat
  | 0 => 0
  | k + 1 => if v.getLsbD (k + 1) then k + 1 else topBit v k

/-- R93: `frac`, the 23 fraction bits of the integer `v` whose highest set bit is `e`. -/
def fraction (v : Half) (e : Nat) : Nat := (v.toNat - (1 <<< e)) <<< (23 - e)

/-- R93: the binary32 pattern of the integer `v`: sign 0, exponent `127 + e`, fraction; 0 is `+0.0`. -/
def widenBinary32 (v : Half) : FloatBits :=
  if v = 0 then 0
  else BitVec.ofNat 32 ((127 + topBit v 15) <<< 23 ||| fraction v (topBit v 15))

/-- R93 for each `FLOAT_FMT`: binary32 by default; the pattern of another format is a free value
(assumption 4). -/
def widenBits (fmt : FloatFmt) (v : Half) : FloatBits :=
  match fmt with
  | .binary32 => widenBinary32 v
  | .other tag => Config.otherFloatBits tag v

/-- The exponent field of a binary32 pattern. -/
def exponentField (b : FloatBits) : Nat := b.toNat / 2 ^ 23 % 2 ^ 8

/-- The fraction field of a binary32 pattern. -/
def fractionField (b : FloatBits) : Nat := b.toNat % 2 ^ 23

/-- The magnitude of a finite binary32 pattern, as `significand * 2 ^ exponent / 2 ^ 150`. -/
def binary32Magnitude (b : FloatBits) : Rat :=
  if exponentField b = 0 then (fractionField b * 2 : Rat) / 2 ^ 150
  else ((2 ^ 23 + fractionField b : Nat) * 2 ^ exponentField b : Rat) / 2 ^ 150

/-- The number a binary32 pattern stands for; none for an infinity or a NaN. -/
def binary32Value (b : FloatBits) : Option Rat :=
  if exponentField b = 255 then none
  else some (if b.getLsbD 31 then - binary32Magnitude b else binary32Magnitude b)

end Sys2Proof.Machine
end

