-- ==== Sys2Proof/Machine/Dec.lean ====
section
/-! DEFINITION. Unit DEC, the response frame decoder with checksum validator (spec 42): VAL.CHK,
VAL.FRAME, DEC.MEAS, DEC.CTRL, DEC.WIDEN. The response bytes are any bytes (R85); payload outputs carry
the payload only when `outcome = OK`, the flags and `sum` are never gated (R90). -/

namespace Sys2Proof.Machine

/-- The outputs of a checksum test of data bytes against a supplied byte (R86, R87). -/
def checkOut (data : List Byte) (supplied : Byte) : OutPorts :=
  { OutPorts.zero with
    sum := csum data
    ok := okFlag (csum data) supplied
    outcome := checkOutcome (okFlag (csum data) supplied) }

/-- VAL.CHK (R86): `ok <- (csum(buf[0..len-1]) == chk)`; `len > BUF_MAX` is `ILLEGAL`. -/
def execValChk (s : State) : Host.Outcome State Fault Refusal :=
  if s.inp.len ≤ s.params.bufMax then answer s (checkOut (bufData s) s.inp.chk)
  else answerIllegal s

/-- VAL.FRAME (R87): the last of the `len` bytes is the checksum of those before it; `len` 0 or above
`BUF_MAX` is `ILLEGAL`. -/
def execValFrame (s : State) : Host.Outcome State Fault Refusal :=
  if 1 ≤ s.inp.len ∧ s.inp.len ≤ s.params.bufMax then
    answer s (checkOut (frameData s) (frameChecksum s))
  else answerIllegal s

/-- The outputs of DEC.MEAS on the four bytes of a measurement response (R43, R89). -/
def measOut (status concHigh concLow chk : Byte) : OutPorts :=
  let sum := csum [status, concHigh, concLow]
  let ready := readyFlag status
  let ok := okFlag sum chk
  { OutPorts.zero with
    sum := sum
    ready := ready
    ok := ok
    outcome := measOutcome ready ok
    value := if measOutcome ready ok = .ok then bigEndian concHigh concLow else 0 }

/-- DEC.MEAS (R89): decodes `buf[0..3]`; `len` other than 4 is `ILLEGAL`. -/
def execDecMeas (s : State) : Host.Outcome State Fault Refusal :=
  if s.inp.len = 4 then
    answer s (measOut (bufByte s 0) (bufByte s 1) (bufByte s 2) (bufByte s 3))
  else answerIllegal s

/-- The outputs of DEC.CTRL on the three bytes of a control-register response (R44, R91). There is no
readiness test and the checksum window is two bytes (R92). -/
def ctrlOut (reg0 reg1 chk : Byte) : OutPorts :=
  let sum := csum [reg0, reg1]
  let ok := okFlag sum chk
  { OutPorts.zero with
    sum := sum
    ok := ok
    outcome := checkOutcome ok
    reg0 := if ok then reg0 else 0
    reg1 := if ok then reg1 else 0
    abc := ok && abcBit reg1 }

/-- DEC.CTRL (R91): decodes `buf[0..2]`; `len` other than 3 is `ILLEGAL`. -/
def execDecCtrl (s : State) : Host.Outcome State Fault Refusal :=
  if s.inp.len = 3 then answer s (ctrlOut (bufByte s 0) (bufByte s 1) (bufByte s 2))
  else answerIllegal s

/-- DEC.WIDEN (R93): the floating-point number whose value is exactly `v16`. -/
def execDecWiden (s : State) : Host.Outcome State Fault Refusal :=
  answer s { OutPorts.zero with fbits := widenBits s.params.floatFmt s.inp.v16 }

end Sys2Proof.Machine
end

