-- ==== Sys2Proof/Machine/Enc.lean ====
section
/-! DEFINITION. Unit ENC, the command frame encoder (spec 41). Every operation gives `outcome = OK` and
sets no flag; the frame's unused byte positions are 0 and `sum` is the checksum byte appended. -/

namespace Sys2Proof.Machine

/-- ENC.BUILD3 (R70): `build_command(opcode, register)`, format C3. -/
def execEncBuild3 (s : State) : Host.Outcome State Fault Refusal :=
  answer s (frameOut (buildCommand s.inp.opcode s.inp.reg none)
    (csum (commandData s.inp.opcode s.inp.reg none)))

/-- ENC.BUILD4 (R71): `build_command(opcode, register, value)`, format C4. -/
def execEncBuild4 (s : State) : Host.Outcome State Fault Refusal :=
  answer s (frameOut (buildCommand s.inp.opcode s.inp.reg (some s.inp.val))
    (csum (commandData s.inp.opcode s.inp.reg (some s.inp.val))))

/-- ENC.MEAS (R72): the measure command, a constant. -/
def execEncMeas (s : State) : Host.Outcome State Fault Refusal :=
  answer s (frameOut measureFrame 0x2A)

/-- ENC.RDCTRL (R73): the read-control command, a constant. -/
def execEncRdctrl (s : State) : Host.Outcome State Fault Refusal :=
  answer s (frameOut readControlFrame 0x7F)

/-- ENC.WRCTRL (R74): the write-control command for an already patched byte. -/
def execEncWrctrl (s : State) : Host.Outcome State Fault Refusal :=
  answer s (frameOut (writeControlFrame s.inp.val) (writeControlSum s.inp.val))

/-- ENC.WRCTRLP (R77): patches `val` by R76 and builds the write-control command for the patched byte,
which it also drives on `patched`. -/
def execEncWrctrlp (s : State) : Host.Outcome State Fault Refusal :=
  let p := patch s.inp.val s.inp.desired
  answer s { frameOut (writeControlFrame p) (writeControlSum p) with patched := p }

/-- ENC.CALINT (R78): the calibration-interval write; no checksum is computed or appended. -/
def execEncCalint (s : State) : Host.Outcome State Fault Refusal :=
  answer s (frameOut (calIntervalFrame s.inp.interval) 0)

end Sys2Proof.Machine
end

