-- ==== Sys2Proof/Machine/Reserved.lean ====
section
/-! DEFINITION. The reserved op codes `0x0` and `0xF` (R54): `ILLEGAL`, every other output 0, "nothing
else happens". The spec gives them this effect at the port level, so they answer it (assumption 10). -/

namespace Sys2Proof.Machine

/-- Reserved op code `0x0` (R54). -/
def execReserved0 (s : State) : Host.Outcome State Fault Refusal := answerIllegal s

/-- Reserved op code `0xF` (R54). -/
def execReservedF (s : State) : Host.Outcome State Fault Refusal := answerIllegal s

end Sys2Proof.Machine
end

