-- ==== Sys2Proof/Machine/Dispatch.lean ====
section
/-! DEFINITION. One arm per operation, each a direct call of its meaning. -/

namespace Sys2Proof.Machine

/-- Performs one operation on the ports of `s` (R51). -/
def exec (i : Instr) (s : State) : Host.Outcome State Fault Refusal :=
  match i with
  | .reserved0 => Sys2Proof.Machine.execReserved0 s
  | .csumStep => Sys2Proof.Machine.execCsumStep s
  | .csumGen => Sys2Proof.Machine.execCsumGen s
  | .valChk => Sys2Proof.Machine.execValChk s
  | .valFrame => Sys2Proof.Machine.execValFrame s
  | .encBuild3 => Sys2Proof.Machine.execEncBuild3 s
  | .encBuild4 => Sys2Proof.Machine.execEncBuild4 s
  | .encMeas => Sys2Proof.Machine.execEncMeas s
  | .encRdctrl => Sys2Proof.Machine.execEncRdctrl s
  | .encWrctrl => Sys2Proof.Machine.execEncWrctrl s
  | .encWrctrlp => Sys2Proof.Machine.execEncWrctrlp s
  | .encCalint => Sys2Proof.Machine.execEncCalint s
  | .decMeas => Sys2Proof.Machine.execDecMeas s
  | .decCtrl => Sys2Proof.Machine.execDecCtrl s
  | .decWiden => Sys2Proof.Machine.execDecWiden s
  | .reservedF => Sys2Proof.Machine.execReservedF s

end Sys2Proof.Machine
end

