-- ==== Sys2Proof/Machine/Step.lean ====
section
/-! DEFINITION. One step is one invocation of the block (R11, R14): the operation on the `op` port is
decoded and performed on the values of the input ports. Nothing advances and nothing is fetched from
memory (R11, R37). -/

namespace Sys2Proof.Machine

/-- R51: the block performs the operation named by its `op` input. -/
def step (s : State) : Host.Outcome State Fault Refusal := exec (decodeOp (fetchOp s)) s

/-- `s` with the table word's op code on the `op` port, so that the next step performs it (assumption
6). Only the low four bits reach the port; a word with other bits set is no op code, and `decode`
refuses it. -/
def State.withFetchWord (s : State) (nbits w : Nat) : State := placeOp s (opOfWord nbits w)

end Sys2Proof.Machine
end

