-- ==== Sys2Proof/Machine/FunctionLevel.lean ====
section
/-! DEFINITION. The function level (spec 00 section 5, "Two levels"): each operation as a pure function on
values, written from the frame layouts and integer arithmetic of the spec and not from the port-level
meanings, with the way its operands stand on the input ports (R15, R17) and its results on the output
ports (R16, R18). The operand types exclude what the port level answers with `ILLEGAL` (R55), and there
is no constructor for a reserved code (spec 93, U9). -/

namespace Sys2Proof.Machine

/-- An operation with its operands, in the order of R52. -/
inductive Invocation where
  | csumStep (acc d : Byte)
  | csumGen (bytes : List Byte)
  | valChk (data : List Byte) (chk : Byte)
  /-- A whole frame has at least its checksum byte; `data` are the bytes before it. -/
  | valFrame (data : List Byte) (chk : Byte)
  | encBuild3 (opcode : Byte) (reg : Half)
  | encBuild4 (opcode : Byte) (reg : Half) (val : Byte)
  | encMeas
  | encRdctrl
  | encWrctrl (val : Byte)
  | encWrctrlp (val : Byte) (desired : Bool)
  | encCalint (interval : Half)
  | decMeas (status concHigh concLow chk : Byte)
  | decCtrl (reg0 reg1 chk : Byte)
  | decWiden (v16 : Half)
deriving DecidableEq, Repr

/-- What a measurement response decodes to: only `OK` carries the payload (R90). -/
inductive MeasResult where
  | ok (value : Half)
  | notReady
  | checksumMismatch
deriving DecidableEq, Repr

/-- What a control-register response decodes to: only `OK` carries the payload (R90). -/
inductive CtrlResult where
  | ok (reg0 reg1 : Byte) (abc : Bool)
  | checksumMismatch
deriving DecidableEq, Repr

/-- The result of an invocation at the function level. -/
inductive Result where
  | sum (c : Byte)
  | check (sum : Byte) (ok : Bool)
  | frame (bytes : List Byte) (sum : Byte)
  | patchedFrame (bytes : List Byte) (sum patched : Byte)
  | meas (sum : Byte) (ready ok : Bool) (r : MeasResult)
  | ctrl (sum : Byte) (ok : Bool) (r : CtrlResult)
  /-- The Reading: the real number `v` (R93, R94). -/
  | reading (v : Half)
deriving DecidableEq, Repr

/-- R60: `(B[0] + B[1] + … ) mod 256`, the integer sum reduced once at the end. -/
def truncatedSum (bytes : List Byte) : Byte := BitVec.ofNat 8 (bytes.map BitVec.toNat).sum

/-- R46: the two bytes of a 16-bit field, the more significant first. -/
def splitField (v : Half) : List Byte := [BitVec.ofNat 8 (v.toNat / 256), BitVec.ofNat 8 v.toNat]

/-- R40, R41: data bytes and, last, the truncated sum of all of them. -/
def checksummed (data : List Byte) : Result := .frame (data ++ [truncatedSum data]) (truncatedSum data)

/-- R45, R41: the data bytes of the write-control command. -/
def writeControlData (v : Byte) : List Byte := [0x31] ++ splitField 0x003E ++ [v]

/-- R76: clear bit 1, then put the desired state there. -/
def forceBit1 (v : Byte) (desired : Bool) : Byte :=
  (v &&& ~~~(0x02 : Byte)) ||| (if desired then 0x02 else 0x00)

/-- R43, R89: the measurement response, readiness before the checksum. -/
def measResult (status concHigh concLow chk : Byte) : MeasResult :=
  if status.toNat % 2 = 0 then .notReady
  else if truncatedSum [status, concHigh, concLow] = chk then
    .ok (BitVec.ofNat 16 (concHigh.toNat * 256 + concLow.toNat))
  else .checksumMismatch

/-- R44, R91: the control-register response. -/
def ctrlResult (reg0 reg1 chk : Byte) : CtrlResult :=
  if truncatedSum [reg0, reg1] = chk then .ok reg0 reg1 (decide (reg1.toNat / 2 % 2 = 1))
  else .checksumMismatch

/-- The result of each operation (rules R61, R62, R86, R87, R70 to R74, R77, R78, R89, R91, R93). -/
def Invocation.eval : Invocation → Result
  | .csumStep acc d => .sum (BitVec.ofNat 8 (acc.toNat + d.toNat))
  | .csumGen bytes => .sum (truncatedSum bytes)
  | .valChk data chk => .check (truncatedSum data) (decide (truncatedSum data = chk))
  | .valFrame data chk => .check (truncatedSum data) (decide (truncatedSum data = chk))
  | .encBuild3 opcode reg => checksummed ([opcode] ++ splitField reg)
  | .encBuild4 opcode reg val => checksummed ([opcode] ++ splitField reg ++ [val])
  | .encMeas => checksummed ([0x22] ++ splitField 0x0008)
  | .encRdctrl => checksummed ([0x41] ++ splitField 0x003E)
  | .encWrctrl val => checksummed (writeControlData val)
  | .encWrctrlp val desired =>
    let p := forceBit1 val desired
    .patchedFrame (writeControlData p ++ [truncatedSum (writeControlData p)])
      (truncatedSum (writeControlData p)) p
  | .encCalint interval => .frame ([0x01, 0x40] ++ splitField interval) 0
  | .decMeas status concHigh concLow chk =>
    .meas (truncatedSum [status, concHigh, concLow]) (decide (status.toNat % 2 = 1))
      (decide (truncatedSum [status, concHigh, concLow] = chk)) (measResult status concHigh concLow chk)
  | .decCtrl reg0 reg1 chk =>
    .ctrl (truncatedSum [reg0, reg1]) (decide (truncatedSum [reg0, reg1] = chk))
      (ctrlResult reg0 reg1 chk)
  | .decWiden v16 => .reading v16

/-- The output ports a measurement result stands on. -/
def MeasResult.toOut (r : MeasResult) (o : OutPorts) : OutPorts :=
  match r with
  | .ok value => { o with value := value, outcome := .ok }
  | .notReady => { o with outcome := .notReady }
  | .checksumMismatch => { o with outcome := .checksumMismatch }

/-- The output ports a control-register result stands on. -/
def CtrlResult.toOut (r : CtrlResult) (o : OutPorts) : OutPorts :=
  match r with
  | .ok reg0 reg1 abc => { o with reg0 := reg0, reg1 := reg1, abc := abc, outcome := .ok }
  | .checksumMismatch => { o with outcome := .checksumMismatch }

/-- R16, R18: a function-level result on the output ports; every port it does not name is 0. -/
def Result.toOut (fmt : FloatFmt) : Result → OutPorts
  | .sum c => { OutPorts.zero with sum := c }
  | .check c matched =>
    { OutPorts.zero with
      sum := c, ok := matched, outcome := if matched then .ok else .checksumMismatch }
  | .frame bytes c =>
    { OutPorts.zero with
      frame := packFrame bytes, frameLen := BitVec.ofNat 3 bytes.length, sum := c }
  | .patchedFrame bytes c p =>
    { OutPorts.zero with
      frame := packFrame bytes, frameLen := BitVec.ofNat 3 bytes.length, sum := c, patched := p }
  | .meas c isReady matched r =>
    r.toOut { OutPorts.zero with sum := c, ready := isReady, ok := matched }
  | .ctrl c matched r => r.toOut { OutPorts.zero with sum := c, ok := matched }
  | .reading v => { OutPorts.zero with fbits := widenBits fmt v }

/-- The operation an invocation asks for. -/
def Invocation.instr : Invocation → Instr
  | .csumStep _ _ => .csumStep
  | .csumGen _ => .csumGen
  | .valChk _ _ => .valChk
  | .valFrame _ _ => .valFrame
  | .encBuild3 _ _ => .encBuild3
  | .encBuild4 _ _ _ => .encBuild4
  | .encMeas => .encMeas
  | .encRdctrl => .encRdctrl
  | .encWrctrl _ => .encWrctrl
  | .encWrctrlp _ _ => .encWrctrlp
  | .encCalint _ => .encCalint
  | .decMeas _ _ _ _ => .decMeas
  | .decCtrl _ _ _ => .decCtrl
  | .decWiden _ => .decWiden

/-- The bytes an invocation puts on `buf`; none for an operation that does not read `buf`. -/
def Invocation.bufBytes : Invocation → List Byte
  | .csumGen bytes => bytes
  | .valChk data _ => data
  | .valFrame data chk => data ++ [chk]
  | .decMeas status concHigh concLow chk => [status, concHigh, concLow, chk]
  | .decCtrl reg0 reg1 chk => [reg0, reg1, chk]
  | .csumStep _ _ | .encBuild3 _ _ | .encBuild4 _ _ _ | .encMeas | .encRdctrl | .encWrctrl _
  | .encWrctrlp _ _ | .encCalint _ | .decWiden _ => []

/-- D9: the byte sequence fits the `buf` port. -/
def Invocation.fits (v : Invocation) (bufMax : Nat) : Bool := decide (v.bufBytes.length ≤ bufMax)

/-- Bytes on the first positions of `buf`; the positions beyond them keep what they hold (R17). -/
def putBuf (p : InPorts) (bytes : List Byte) : InPorts :=
  { p with buf := bytes ++ p.buf.drop bytes.length, len := bytes.length }

/-- The environment presents an invocation: its op code and its operands on the ports its format reads
(R15, R53); every other port keeps what it holds. -/
def Invocation.present (v : Invocation) (ports : InPorts) : InPorts :=
  let p := { ports with op := encodeOp v.instr }
  match v with
  | .csumStep acc d => { p with acc := acc, d := d }
  | .csumGen bytes => putBuf p bytes
  | .valChk data chk => { putBuf p data with chk := chk }
  | .valFrame data chk => putBuf p (data ++ [chk])
  | .encBuild3 opcode reg => { p with opcode := opcode, reg := reg }
  | .encBuild4 opcode reg val => { p with opcode := opcode, reg := reg, val := val }
  | .encMeas => p
  | .encRdctrl => p
  | .encWrctrl val => { p with val := val }
  | .encWrctrlp val desired => { p with val := val, desired := desired }
  | .encCalint interval => { p with interval := interval }
  | .decMeas status concHigh concLow chk => putBuf p [status, concHigh, concLow, chk]
  | .decCtrl reg0 reg1 chk => putBuf p [reg0, reg1, chk]
  | .decWiden v16 => { p with v16 := v16 }

/-- The invocation the input ports hold; none for a reserved op code (R54) or an operand out of range
(R55). -/
def Invocation.ofPorts (params : Params) (p : InPorts) : Option Invocation :=
  let byte := fun i => p.buf.getD i 0
  match decodeOp p.op with
  | .reserved0 => none
  | .csumStep => some (.csumStep p.acc p.d)
  | .csumGen => if p.len ≤ params.bufMax then some (.csumGen (p.buf.take p.len)) else none
  | .valChk => if p.len ≤ params.bufMax then some (.valChk (p.buf.take p.len) p.chk) else none
  | .valFrame =>
    if 1 ≤ p.len ∧ p.len ≤ params.bufMax then
      some (.valFrame (p.buf.take (p.len - 1)) (byte (p.len - 1)))
    else none
  | .encBuild3 => some (.encBuild3 p.opcode p.reg)
  | .encBuild4 => some (.encBuild4 p.opcode p.reg p.val)
  | .encMeas => some .encMeas
  | .encRdctrl => some .encRdctrl
  | .encWrctrl => some (.encWrctrl p.val)
  | .encWrctrlp => some (.encWrctrlp p.val p.desired)
  | .encCalint => some (.encCalint p.interval)
  | .decMeas => if p.len = 4 then some (.decMeas (byte 0) (byte 1) (byte 2) (byte 3)) else none
  | .decCtrl => if p.len = 3 then some (.decCtrl (byte 0) (byte 1) (byte 2)) else none
  | .decWiden => some (.decWiden p.v16)
  | .reservedF => none

/-- The outputs the function level gives for the values on the input ports. -/
def functionLevelOut (params : Params) (p : InPorts) : OutPorts :=
  match Invocation.ofPorts params p with
  | some v => v.eval.toOut params.floatFmt
  | none => illegalOut

end Sys2Proof.Machine
end

