-- ==== Sys2Proof/Machine/Environment.lean ====
section
/-! DEFINITION. The environment contract (rules R112 to R126, R131, R132): the surrounding software that
invokes the block and acts on its outcomes. It is outside the block (spec 00 section 3), so none of its
state is in `State` and `step` never runs it (assumption 12); it is modelled as the host the spec
describes, with the shape R122 gives: a state value per machine, one pending piece of work, and one step
function. Every frame it sends and every response it decodes goes through the block's own `step`.

An event is what an external collaborator delivers: the start of setup, a poll tick or a fired timer from
the Scheduler (R113), the reply of the Bus Client (R112). An action is what the environment asks of one:
a bus transfer, a timer, a publication (R114), a log line. -/

namespace Sys2Proof.Machine

/-- Setup Progress (R115). -/
inductive SetupProgress where
  | notStarted | readingControl | configuringCalibration | complete
deriving DecidableEq, Repr

/-- Measurement Progress (R115). -/
inductive MeasProgress where
  | idle | commandSent | awaitingResult
deriving DecidableEq, Repr

/-- R112: one write or one read of the Bus Client. -/
inductive BusRequest where
  | write (addr : BitVec 7) (bytes : List Byte)
  | read (addr : BitVec 7) (length : Nat)
deriving DecidableEq, Repr

/-- R112: what the Bus Client answers. The value of a transport error code is never inspected (U6). -/
inductive BusReply where
  | written
  | data (bytes : List Byte)
  | transportError (code : Nat)
deriving DecidableEq, Repr

/-- The six bus transfers of the two state machines (R116, R117, R119 to R121). -/
inductive BusTask where
  | writeMeasure | readMeasure | writeReadControl | readControl | writeControl | writeInterval
deriving DecidableEq, Repr

/-- The logical operations, each with a Retry Counter of its own (R115: "one register read, one register
write, one measurement attempt"). The interval write is an operation of its own (R121: the two are
"independent best-effort operations"; assumption 15). -/
inductive LogicalOp where
  | registerRead | registerWrite | intervalWrite | measurement
deriving DecidableEq, Repr

/-- The logical operation a transfer is part of: a command write and the read of its response are one
operation (R115, "one measurement attempt"; for the register read, assumption 15). -/
def BusTask.logicalOp : BusTask → LogicalOp
  | .writeMeasure | .readMeasure => .measurement
  | .writeReadControl | .readControl => .registerRead
  | .writeControl => .registerWrite
  | .writeInterval => .intervalWrite

/-- A bus transfer with what it is for: the "tagged unit of work" of R122's design note. -/
structure BusOp where
  task : BusTask
  request : BusRequest
deriving DecidableEq, Repr

/-- The one piece of pending work (R124: at most one transfer in flight): nothing, a transfer whose reply
is awaited, or a scheduled callback that will issue a transfer. -/
inductive Pending where
  | nothing
  | transfer (op : BusOp)
  | timer (delayMs : Nat) (op : BusOp)
deriving DecidableEq, Repr

/-- The bus transfer a piece of pending work is for. -/
def Pending.operation : Pending → Option BusOp
  | .nothing => none
  | .transfer op => some op
  | .timer _ op => some op

/-- What an external collaborator delivers. -/
inductive EnvEvent where
  /-- The device has started and its configuration is supplied (R131, R132). -/
  | start
  /-- The Scheduler's periodic poll tick, `elapsedS` seconds after the one before it (R113, R140). -/
  | pollTick (elapsedS : Nat)
  /-- The Bus Client answers the transfer in flight (R112). -/
  | busReply (r : BusReply)
  /-- The Scheduler fires the pending callback `elapsedMs` milliseconds after it was scheduled (R113). -/
  | timerFired (elapsedMs : Nat)
deriving DecidableEq, Repr

/-- What the environment logs or reports (R101, R116 to R121). -/
inductive EnvReport where
  | notReady
  | measChecksumMismatch
  | measTransportFailure
  | setupChecksumMismatch
  | setupAbandoned
  | intervalWriteFailed
deriving DecidableEq, Repr

/-- What the environment asks of an external collaborator. -/
inductive EnvAction where
  | bus (r : BusRequest)
  | after (delayMs : Nat)
  | publish (fbits : FloatBits)
  | report (r : EnvReport)
deriving DecidableEq, Repr

/-- Why an event is outside the contract. Each is a refusal (assumption 17; safe). -/
inductive EnvRefusal where
  /-- Setup "runs exactly once per boot" (R119). -/
  | alreadyStarted
  /-- The poll interval is a lower bound (R140). -/
  | pollTooEarly
  /-- No transfer is in flight. -/
  | noTransferInFlight
  /-- A write is answered with data or a read without. -/
  | replyDoesNotFit
  /-- The read returned a number of bytes other than the number asked (N9, U11). -/
  | wrongReadLength
  /-- No callback is scheduled. -/
  | noTimer
  /-- A callback fires "at least" its delay later (R113). -/
  | timerTooEarly
  /-- `CAL_INTERVAL_S` above 65535 has no operand (R79, U12). -/
  | intervalTooWide
  /-- The block answered no outcome the transfer's decoder can give; no contract-abiding run does. -/
  | blockAnswer
deriving DecidableEq, Repr

/-- The environment's state (R115) with the block it drives. -/
structure EnvState where
  cfg : EnvConfig
  setup : SetupProgress
  meas : MeasProgress
  /-- The Retry Counter of the logical operation under way; left as it is when one is abandoned. -/
  retry : Nat
  pending : Pending
  /-- The block, between two invocations. -/
  block : State
deriving DecidableEq, Repr

/-- R131: the environment at boot. -/
def EnvState.boot (cfg : EnvConfig) (block : State) : EnvState :=
  { cfg := cfg, setup := .notStarted, meas := .idle, retry := 0, pending := .nothing, block := block }

/-- An event's effect: the next state and the actions asked for, in order. -/
abbrev EnvResult := Except EnvRefusal (EnvState × List EnvAction)

/-- One invocation of the block: the operands are put on its ports and it performs one step. -/
def invoke (v : Invocation) (block : State) : Except EnvRefusal State :=
  match step (presentInputs block (v.present block.inp)) with
  | .next b => .ok b
  | .fault _ => .error .blockAnswer
  | .refused _ => .error .blockAnswer

/-- Puts a transfer in flight. -/
def issue (e : EnvState) (op : BusOp) : EnvState × List EnvAction :=
  ({ e with pending := .transfer op }, [.bus op.request])

/-- The write of the frame the block has just built, whole and unmodified (R34, R134). -/
def frameWrite (e : EnvState) (task : BusTask) : BusOp :=
  { task := task
    request := .write e.cfg.deviceAddr
      (frameBytes e.block.out.frame e.block.out.frameLen.toNat) }

/-- Starts a new logical operation with a command write: the Retry Counter is reset (R115), the block
builds the frame, the write is issued. -/
def startWrite (e : EnvState) (task : BusTask) (v : Invocation) : EnvResult :=
  (invoke v e.block).map fun b =>
    let e' := { e with block := b, retry := 0 }
    issue e' (frameWrite e' task)

/-- R117, R120, R138: waits the settle delay, then reads. The read is part of the logical operation its
command write began, so the Retry Counter goes on (R115; assumption 15). -/
def settleThenRead (e : EnvState) (task : BusTask) (n : Nat) : EnvState × List EnvAction :=
  ({ e with
      pending := .timer e.cfg.settleDelayMs { task := task, request := .read e.cfg.deviceAddr n } },
    [.after e.cfg.settleDelayMs])

/-- The end of a measurement cycle (R116 to R118). -/
def finishMeas (e : EnvState) (acts : List EnvAction) : EnvState × List EnvAction :=
  ({ e with meas := .idle, pending := .nothing }, acts)

/-- The end of setup (R119 to R121). -/
def finishSetup (e : EnvState) (acts : List EnvAction) : EnvState × List EnvAction :=
  ({ e with setup := .complete, pending := .nothing }, acts)

/-- R116, R117, R119 to R121: the terminal failure callback of each logical operation. -/
def exhausted (e : EnvState) (op : LogicalOp) : EnvState × List EnvAction :=
  match op with
  | .measurement => finishMeas e [.report .measTransportFailure]
  | .registerRead | .registerWrite => finishSetup e [.report .setupAbandoned]
  | .intervalWrite => finishSetup e [.report .intervalWriteFailed]

/-- R121: only the interval write is best-effort and never retried. -/
def retried : LogicalOp → Bool
  | .intervalWrite => false
  | .measurement | .registerRead | .registerWrite => true

/-- R122: the Retry/Backoff Policy on a transport failure. The counter is the logical operation's; what is
scheduled again is the transfer that failed, which the policy is "scoped to" (R116, R117). -/
def transportFailed (e : EnvState) (op : BusOp) : EnvState × List EnvAction :=
  if retried op.task.logicalOp then
    let e' := { e with retry := e.retry + 1 }
    if e'.retry < e.cfg.retryCeiling then
      ({ e' with pending := .timer e.cfg.retryDelayMs op }, [.after e.cfg.retryDelayMs])
    else exhausted e' op.task.logicalOp
  else exhausted e op.task.logicalOp

/-- R121: the calibration-interval write, when calibration is being enabled. -/
def startInterval (e : EnvState) : EnvResult :=
  if e.cfg.calIntervalS ≤ 65535 then
    startWrite e .writeInterval (.encCalint (BitVec.ofNat 16 e.cfg.calIntervalS))
  else .error .intervalTooWide

/-- What follows a successful write (R117, R120, R121). -/
def afterWrite (e : EnvState) (task : BusTask) : EnvResult :=
  match task with
  | .writeMeasure => .ok (settleThenRead { e with meas := .awaitingResult } .readMeasure 4)
  | .writeReadControl => .ok (settleThenRead e .readControl 3)
  | .writeControl => if e.cfg.calEnable then startInterval e else .ok (finishSetup e [])
  | .writeInterval => .ok (finishSetup e [])
  | .readMeasure | .readControl => .error .replyDoesNotFit

/-- R118: the measurement response goes to DEC.MEAS and the outcome decides. -/
def onMeasurement (e : EnvState) (r0 r1 r2 r3 : Byte) : EnvResult :=
  (invoke (.decMeas r0 r1 r2 r3) e.block).bind fun b =>
    match b.out.outcome with
    | .ok => (invoke (.decWiden b.out.value) b).map fun b' =>
        finishMeas { e with block := b' } [.publish b'.out.fbits]
    | .notReady => .ok (finishMeas { e with block := b } [.report .notReady])
    | .checksumMismatch => .ok (finishMeas { e with block := b } [.report .measChecksumMismatch])
    | .illegal => .error .blockAnswer

/-- R120, R121: the control-register response goes to DEC.CTRL and the outcome decides; on `OK` the live
calibration bit is compared with the configured intent. -/
def onControl (e : EnvState) (r0 r1 r2 : Byte) : EnvResult :=
  (invoke (.decCtrl r0 r1 r2) e.block).bind fun b =>
    match b.out.outcome with
    | .ok =>
      if b.out.abc = e.cfg.calEnable then .ok (finishSetup { e with block := b } [])
      else
        startWrite { e with block := b, setup := .configuringCalibration } .writeControl
          (.encWrctrlp b.out.reg1 e.cfg.calEnable)
    | .checksumMismatch => .ok (finishSetup { e with block := b } [.report .setupChecksumMismatch])
    | .notReady => .error .blockAnswer
    | .illegal => .error .blockAnswer

/-- What follows a successful read. -/
def afterRead (e : EnvState) (task : BusTask) (bytes : List Byte) : EnvResult :=
  match task, bytes with
  | .readMeasure, [r0, r1, r2, r3] => onMeasurement e r0 r1 r2 r3
  | .readControl, [r0, r1, r2] => onControl e r0 r1 r2
  | _, _ => .error .replyDoesNotFit

/-- The Bus Client's reply to the transfer in flight (R112). -/
def onReply (e : EnvState) (op : BusOp) (r : BusReply) : EnvResult :=
  match r, op.request with
  | .transportError _, _ => .ok (transportFailed e op)
  | .written, .write _ _ => afterWrite e op.task
  | .data bytes, .read _ n =>
    if bytes.length = n then afterRead e op.task bytes else .error .wrongReadLength
  | .written, .read _ _ => .error .replyDoesNotFit
  | .data _, .write _ _ => .error .replyDoesNotFit

/-- R119, R132: setup starts once per boot with the read-control command. -/
def onStart (e : EnvState) : EnvResult :=
  if e.setup = .notStarted then
    startWrite { e with setup := .readingControl } .writeReadControl .encRdctrl
  else .error .alreadyStarted

/-- R116, R132: a poll tick starts a measurement when setup is complete and the machine is idle; otherwise
it is silently dropped. -/
def onPollTick (e : EnvState) (elapsedS : Nat) : EnvResult :=
  if elapsedS < e.cfg.pollIntervalS then .error .pollTooEarly
  else if e.setup = .complete ∧ e.meas = .idle then
    startWrite { e with meas := .commandSent } .writeMeasure .encMeas
  else .ok (e, [])

/-- R113, R122: the pending callback fires and its transfer is issued. -/
def onTimer (e : EnvState) (elapsedMs : Nat) : EnvResult :=
  match e.pending with
  | .timer delayMs op => if delayMs ≤ elapsedMs then .ok (issue e op) else .error .timerTooEarly
  | .nothing => .error .noTimer
  | .transfer _ => .error .noTimer

/-- One step of the environment on one event. -/
def envStep (e : EnvState) (ev : EnvEvent) : EnvResult :=
  match ev with
  | .start => onStart e
  | .pollTick elapsedS => onPollTick e elapsedS
  | .busReply r =>
    match e.pending with
    | .transfer op => onReply e op r
    | .nothing => .error .noTransferInFlight
    | .timer _ _ => .error .noTransferInFlight
  | .timerFired elapsedMs => onTimer e elapsedMs

end Sys2Proof.Machine
end

