-- ==== Sys2Proof/Safety.lean ====
section
/-! DEFINITION. What counts as a safe state and a safe run, in the terms the statements use: an operation
that completes (R18, R102), output ports whose payload is gated (R90) and whose frame is zero beyond its
length (R17), the outcomes each operation may give (R104), and the consistency of the environment's
state (R115, R124). -/

namespace Sys2Proof.Machine

/-- A step that completes: it answers a next state. -/
def completes (o : Host.Outcome State Fault Refusal) : Bool :=
  match o with
  | .next _ => true
  | .fault _ => false
  | .refused _ => false

/-- R90: payload outputs are 0 unless `outcome = OK`. -/
def OutPorts.payloadGated (o : OutPorts) : Bool :=
  o.outcome == .ok || (o.value == 0 && o.reg0 == 0 && o.reg1 == 0 && o.abc == false)

/-- R16, R17: a frame is absent, 4 or 5 bytes long, and 0 at and beyond its length. -/
def OutPorts.frameClosed (o : OutPorts) : Bool :=
  (o.frameLen == 0 || o.frameLen == 4 || o.frameLen == 5)
    && decide (o.frame.toNat < 2 ^ (8 * o.frameLen.toNat))

/-- R54, R55: with `ILLEGAL` every other output is 0. -/
def OutPorts.illegalIsBare (o : OutPorts) : Bool := o.outcome != .illegal || o == illegalOut

/-- What every value the block drives on its output ports satisfies. -/
def OutPorts.wellFormed (o : OutPorts) : Bool :=
  o.payloadGated && o.frameClosed && o.illegalIsBare

/-- The input values fit their ports (R15): `buf` holds `BUF_MAX` bytes, `len` fits `LEN_W` bits. -/
def InPorts.wellFormed (p : Params) (i : InPorts) : Bool :=
  i.buf.length == p.bufMax && decide (i.len < 2 ^ p.lenW)

/-- The states the hardware can be in. -/
def State.wellFormed (s : State) : Bool :=
  s.params.wellFormed && InPorts.wellFormed s.params s.inp && s.out.wellFormed

/-- R104's table: the outcomes an operation can give. -/
def allowedOutcomes : Instr → List OutcomeCode
  | .reserved0 | .reservedF => [.illegal]
  | .csumGen => [.ok, .illegal]
  | .valChk | .valFrame | .decCtrl => [.ok, .checksumMismatch, .illegal]
  | .decMeas => [.ok, .notReady, .checksumMismatch, .illegal]
  | .csumStep | .encBuild3 | .encBuild4 | .encMeas | .encRdctrl | .encWrctrl | .encWrctrlp
  | .encCalint | .decWiden => [.ok]

/-- The progress values a pending transfer belongs to, and the shape of its request (R34, R115). -/
def BusOp.fits (op : BusOp) (setup : SetupProgress) (meas : MeasProgress) : Bool :=
  match op.task, op.request with
  | .writeMeasure, .write _ _ => setup == .complete && meas == .commandSent
  | .readMeasure, .read _ n => setup == .complete && meas == .awaitingResult && n == 4
  | .writeReadControl, .write _ _ => setup == .readingControl && meas == .idle
  | .readControl, .read _ n => setup == .readingControl && meas == .idle && n == 3
  | .writeControl, .write _ _ => setup == .configuringCalibration && meas == .idle
  | .writeInterval, .write _ _ => setup == .configuringCalibration && meas == .idle
  | _, _ => false

/-- The pending work agrees with both progress values: no cycle is under way without pending work, and
none has any without being under way (R124). -/
def EnvState.pendingFits (e : EnvState) : Bool :=
  match e.pending with
  | .nothing => (e.setup == .notStarted || e.setup == .complete) && e.meas == .idle
  | .transfer op => op.fits e.setup e.meas
  | .timer _ op => op.fits e.setup e.meas

/-- R122, R125: while an operation is under way its counter is 0 or below the ceiling. -/
def EnvState.retryBounded (e : EnvState) : Bool :=
  e.pending == .nothing || e.retry == 0 || decide (e.retry < e.cfg.retryCeiling)

/-- The environment states the two machines keep to. -/
def EnvState.consistent (e : EnvState) : Bool := e.pendingFits && e.retryBounded

/-- An event the collaborators may deliver (R112, R113, R119, R140; N9). -/
def EnvEvent.abides (e : EnvState) (ev : EnvEvent) : Bool :=
  match ev with
  | .start => e.setup == .notStarted
  | .pollTick elapsedS => decide (e.cfg.pollIntervalS ≤ elapsedS)
  | .busReply r =>
    match e.pending with
    | .transfer op =>
      match r, op.request with
      | .transportError _, _ => true
      | .written, .write _ _ => true
      | .data bytes, .read _ n => bytes.length == n
      | _, _ => false
    | _ => false
  | .timerFired elapsedMs =>
    match e.pending with
    | .timer delayMs _ => decide (delayMs ≤ elapsedMs)
    | _ => false

end Sys2Proof.Machine
end

