-- ==== Sys2Proof/Certificates/Slice0/Obligations.lean ====
section
/-! DEFINITION. The statements for the provers. Each docstring names the rule of the spec it formalises.
A next state written `{ s with out := … }` is the whole state: the input ports and the parameters are
those of `s`, and every output port is given (the ports not named are those of `OutPorts.zero`). So such
a statement is the operation's completion, its result and its frame in one. The block has no memory, no
program counter and no register (R10, R11, R29), so nothing else is there to be changed. -/

open Sys2Proof Sys2Proof.Machine

/-! ### Operation select, step, reset -/

/-- R52: words written out from the table decode to the operations they stand for; bits above the `op`
port are refused (the refusal is the model's reading, assumption 7). -/
def Obligations.WrittenOutWordsDecode : Prop :=
  decode [0b00000001#8] = .ok (.csumStep, []) ∧ decode [0b00000100#8] = .ok (.valFrame, []) ∧
  decode [0b00001010#8] = .ok (.encWrctrlp, []) ∧ decode [0b00001100#8] = .ok (.decMeas, []) ∧
  decode [0b00001111#8] = .ok (.reservedF, []) ∧
  decode [0b00010001#8] = .error (.notAnOpCode 0x11) ∧ decode [] = .error .noByte

/-- R51, R52: decoding the encoding of an operation gives it back with the rest of the bytes, and every
value of the `op` port is the code of the operation it selects. -/
def Obligations.OpCodesRoundTrip : Prop :=
  (∀ (i : Instr) (rest : List Byte), i.wellFormed = true → decode (encode i ++ rest) = .ok (i, rest)) ∧
  (∀ op : BitVec 4, encodeOp (decodeOp op) = op)

/-- R15, R17, R53: an invocation's operands, at every value, are read back from the ports they are
presented on, whatever the other ports hold. -/
def Obligations.PresentedOperandsReadBack : Prop :=
  ∀ (v : Invocation) (params : Params) (ports : InPorts), v.fits params.bufMax = true →
    Invocation.ofPorts params (v.present ports) = some v

/-- R51: when the byte of the `op` port decodes to a well-formed instruction, the step is that
instruction's, with nothing around it; and that byte always decodes to one. -/
def Obligations.StepRunsDecodedInstruction : Prop :=
  (∀ (s : State) (i : Instr) (rest : List Byte),
    decode [(fetchOp s).zeroExtend 8] = .ok (i, rest) → i.wellFormed = true → step s = exec i s) ∧
  (∀ s : State, ∃ i : Instr, i.wellFormed = true ∧ decode [(fetchOp s).zeroExtend 8] = .ok (i, []))

/-- R19: with `op` 0 every output is 0 except `outcome`, which is `ILLEGAL`, whatever else the state
holds; the reset state holds those outputs and an `op` of 0 (the reset inputs are the model's choice,
assumption 2). -/
def Obligations.ResetOutputsAreIllegal : Prop :=
  State.reset.inp.op = 0 ∧ State.reset.out = { OutPorts.zero with outcome := .illegal } ∧
  ∀ s : State, s.inp.op = 0 →
    step s = .next { s with out := { OutPorts.zero with outcome := .illegal } }

/-- R54: each reserved op code gives `ILLEGAL` and every other output 0, and nothing else happens. -/
def Obligations.ReservedCodesAnswerIllegal : Prop :=
  decodeOp 0x0 = .reserved0 ∧ decodeOp 0xF = .reservedF ∧
  ∀ s : State,
    exec .reserved0 s = .next { s with out := { OutPorts.zero with outcome := .illegal } } ∧
    exec .reservedF s = .next { s with out := { OutPorts.zero with outcome := .illegal } }

/-- R100: the four outcome codes. -/
def Obligations.OutcomeCodesOnThePort : Prop :=
  OutcomeCode.bits .ok = 0 ∧ OutcomeCode.bits .notReady = 1 ∧
  OutcomeCode.bits .checksumMismatch = 2 ∧ OutcomeCode.bits .illegal = 3 ∧
  ∀ w : BitVec 2, ∃ c : OutcomeCode, c.bits = w

/-! ### All operations -/

/-- R14, R18 and spec 00 section 5: the port level refines the function level. From every state the step
answers a next state whose outputs are what the pure function of the presented operands gives. -/
def Obligations.StepRefinesFunctionLevel : Prop :=
  ∀ s : State, step s = .next { s with out := functionLevelOut s.params s.inp }

/-- R18, R102, R136: every operation completes from every state; the input ports and the parameters stay
as they are. -/
def Obligations.EveryOperationCompletes : Prop :=
  ∀ (i : Instr) (s : State), ∃ t : State,
    exec i s = .next t ∧ t.inp = s.inp ∧ t.params = s.params

/-- R10 (and the purity the spec derives from it): what a step answers does not depend on what an earlier one left on the output ports, and
the same operation invoked again on the same inputs changes nothing. -/
def Obligations.StepForgetsTheOutputs : Prop :=
  (∀ s s' t t' : State, s.params = s'.params → s.inp = s'.inp →
    step s = .next t → step s' = .next t' → t = t') ∧
  (∀ s t : State, step s = .next t → step t = .next t)

/-- R15, R17, R53: an operation's outputs depend on the input ports its format reads alone; of `buf`, on
its first `len` bytes. -/
def Obligations.OnlyNamedInputsMatter : Prop :=
  ∀ (i : Instr) (s s' t t' : State), s.params = s'.params →
    (∀ p ∈ (operandFormat i).reads, p.agree s.inp s'.inp = true) →
    exec i s = .next t → exec i s' = .next t' → t.out = t'.out

/-- R18: every operation drives its outputs on every input, and each output port it does not name
(R52's results column) is driven 0. -/
def Obligations.UnnamedOutputsAreZero : Prop :=
  ∀ (i : Instr) (s : State), ∃ t : State, exec i s = .next t ∧
    ∀ p : OutPort, p ∉ resultPorts i → p.isZero t.out = true

/-- The outcome table of spec 60 section 1, which the spec marks as derived from the operations' rules:
each operation gives exactly the outcomes its row of the table lists: no other, and each of
them somewhere. -/
def Obligations.OutcomesAreThoseOfTheTable : Prop :=
  ∀ (i : Instr) (c : OutcomeCode),
    c ∈ allowedOutcomes i ↔ ∃ s t : State, exec i s = .next t ∧ t.out.outcome = c

/-- R54, R55: `ILLEGAL` is given for a reserved code and for `len` out of range, in no other case, and
with it every other output is 0. -/
def Obligations.IllegalExactlyWhenMalformed : Prop :=
  ∀ (i : Instr) (s t : State), exec i s = .next t →
    (t.out.outcome = .illegal ↔
      (i = .reserved0 ∨ i = .reservedF ∨
        ((i = .csumGen ∨ i = .valChk ∨ i = .valFrame) ∧ s.params.bufMax < s.inp.len) ∨
        (i = .valFrame ∧ s.inp.len = 0) ∨
        (i = .decMeas ∧ s.inp.len ≠ 4) ∨ (i = .decCtrl ∧ s.inp.len ≠ 3))) ∧
    (t.out.outcome = .illegal → t.out = { OutPorts.zero with outcome := .illegal })

/-- R55: an operand out of range is answered with `ILLEGAL` and every other output 0. -/
def Obligations.OutOfRangeLengthAnswersIllegal : Prop :=
  (∀ (i : Instr) (s : State), i = .csumGen ∨ i = .valChk ∨ i = .valFrame →
    s.params.bufMax < s.inp.len →
    exec i s = .next { s with out := { OutPorts.zero with outcome := .illegal } }) ∧
  (∀ s : State, s.inp.len = 0 →
    exec .valFrame s = .next { s with out := { OutPorts.zero with outcome := .illegal } }) ∧
  (∀ s : State, s.inp.len ≠ 4 →
    exec .decMeas s = .next { s with out := { OutPorts.zero with outcome := .illegal } }) ∧
  (∀ s : State, s.inp.len ≠ 3 →
    exec .decCtrl s = .next { s with out := { OutPorts.zero with outcome := .illegal } })

/-- R90: whatever the operation and the state, the payload outputs are 0 unless `outcome = OK`. -/
def Obligations.PayloadIsGated : Prop :=
  ∀ (i : Instr) (s t : State), exec i s = .next t → t.out.outcome ≠ .ok →
    t.out.value = 0 ∧ t.out.reg0 = 0 ∧ t.out.reg1 = 0 ∧ t.out.abc = false

/-- R15, R17, R54, R90: a step keeps the well-formed states, and its outputs are well formed from any
state. -/
def Obligations.StepKeepsWellFormed : Prop :=
  (∀ s t : State, s.wellFormed = true → step s = .next t → t.wellFormed = true) ∧
  (∀ s t : State, step s = .next t → t.out.wellFormed = true)

/-- The reset state is well formed. -/
def Obligations.ResetIsWellFormed : Prop := State.reset.wellFormed = true

/-- R17: byte `i` of a sequence stands at bits `[8i+7:8i]` of `frame` and of `buf`; the positions beyond
the sequence are 0 on `frame`. -/
def Obligations.BytesStandAtTheirPortBits : Prop :=
  (∀ (bytes : List Byte) (i : Nat), bytes.length ≤ 5 → i < 5 →
    (packFrame bytes).extractLsb' (8 * i) 8 = bytes.getD i 0) ∧
  (∀ (p : Params) (inp : InPorts) (i : Nat), inp.buf.length = p.bufMax → i < p.bufMax →
    (bufPort p inp).extractLsb' (8 * i) 8 = inp.buf.getD i 0)

/-- Spec 30 section 4, identities the spec marks as derived: both sides complete and drive the same outputs (for
ENC.WRCTRLP and ENC.WRCTRL, but for `patched`). -/
def Obligations.IdentitiesBetweenOperations : Prop :=
  (∀ (s : State) (s' : State), s' = { s with inp := { s.inp with opcode := 0x22, reg := 0x0008 } } →
    ∃ out, exec .encMeas s = .next { s with out := out } ∧
      exec .encBuild3 s' = .next { s' with out := out }) ∧
  (∀ (s : State) (s' : State), s' = { s with inp := { s.inp with opcode := 0x41, reg := 0x003E } } →
    ∃ out, exec .encRdctrl s = .next { s with out := out } ∧
      exec .encBuild3 s' = .next { s' with out := out }) ∧
  (∀ (s : State) (s' : State), s' = { s with inp := { s.inp with opcode := 0x31, reg := 0x003E } } →
    ∃ out, exec .encWrctrl s = .next { s with out := out } ∧
      exec .encBuild4 s' = .next { s' with out := out }) ∧
  (∀ (s : State) (s' : State),
    s' = { s with inp := { s.inp with val := patch s.inp.val s.inp.desired } } →
    ∃ out, exec .encWrctrlp s = .next { s with out := { out with patched := s'.inp.val } } ∧
      exec .encWrctrl s' = .next { s' with out := out }) ∧
  (∀ (s : State) (s' : State), 1 ≤ s.inp.len → s.inp.len ≤ s.params.bufMax →
    s' = { s with inp := { s.inp with
      len := s.inp.len - 1, chk := s.inp.buf.getD (s.inp.len - 1) 0 } } →
    ∃ out, exec .valFrame s = .next { s with out := out } ∧
      exec .valChk s' = .next { s' with out := out }) ∧
  (∀ s : State, s.inp.len ≤ s.params.bufMax →
    ∃ t u : State, exec .csumGen s = .next t ∧ exec .valChk s = .next u ∧
      u.out.ok = (t.out.sum == s.inp.chk))

/-! ### Unit CSUM -/

/-- R61: CSUM.STEP adds one byte to a running sum modulo 256. It is the loop body of R60: from the
checksum of a sequence of any length, starting from 0, and one more byte it gives the checksum of the
sequence with that byte appended. -/
def Obligations.CsumStepAddsModulo256 : Prop :=
  (∀ s : State, exec .csumStep s =
    .next { s with out := { OutPorts.zero with
      sum := BitVec.ofNat 8 ((s.inp.acc.toNat + s.inp.d.toNat) % 256) } }) ∧
  csum [] = 0 ∧
  ∀ (s : State) (bytes : List Byte), s.inp.acc = csum bytes →
    exec .csumStep s = .next { s with out := { OutPorts.zero with sum := csum (bytes ++ [s.inp.d]) } }

/-- R62: CSUM.GEN gives the sum of the first `len` bytes of `buf` as integers, its low 8 bits kept; above
`BUF_MAX` it is `ILLEGAL`. -/
def Obligations.CsumGenSumsTheFirstBytes : Prop :=
  ∀ s : State,
    (s.inp.len ≤ s.params.bufMax → exec .csumGen s =
      .next { s with out := { OutPorts.zero with
        sum := BitVec.ofNat 8 (((s.inp.buf.take s.inp.len).map BitVec.toNat).sum % 256) } }) ∧
    (s.params.bufMax < s.inp.len → exec .csumGen s =
      .next { s with out := { OutPorts.zero with outcome := .illegal } })

/-- R60: the loop that reduces after every addition gives the integer sum reduced once at the end. -/
def Obligations.CsumIsTruncatedSum : Prop :=
  ∀ bytes : List Byte, (csum bytes).toNat = (bytes.map BitVec.toNat).sum % 256

/-- Law L-7 and the order law, from R60: concatenation adds, a permutation changes nothing. -/
def Obligations.CsumOfConcatenationAndPermutation : Prop :=
  (∀ a b : List Byte, (csum (a ++ b)).toNat = ((csum a).toNat + (csum b).toNat) % 256) ∧
  (∀ a b : List Byte, a.Perm b → csum a = csum b)

/-- From R60: a change of one bit in one data byte changes the checksum. -/
def Obligations.DataBitFlipChangesTheChecksum : Prop :=
  ∀ (bytes : List Byte) (i k : Nat), i < bytes.length → k < 8 →
    csum (bytes.set i (bytes.getD i 0 ^^^ (1 <<< k))) ≠ csum bytes

/-! ### The validator -/

/-- R86: VAL.CHK compares the checksum of the first `len` bytes with `chk`. -/
def Obligations.ValChkComparesTheSum : Prop :=
  ∀ s : State,
    (s.inp.len ≤ s.params.bufMax → exec .valChk s =
      .next { s with out :=
        let c : Byte := BitVec.ofNat 8 ((s.inp.buf.take s.inp.len).map BitVec.toNat).sum
        { OutPorts.zero with
          sum := c, ok := decide (c = s.inp.chk)
          outcome := if c = s.inp.chk then .ok else .checksumMismatch } }) ∧
    (s.params.bufMax < s.inp.len → exec .valChk s =
      .next { s with out := { OutPorts.zero with outcome := .illegal } })

/-- Spec 42 section 2, VAL.FRAME (a rule the spec marks as derived from VAL.CHK's): it takes the last of the `len` bytes as the checksum of those before it. -/
def Obligations.ValFrameSplitsOffTheLastByte : Prop :=
  (∀ (s : State) (data rest : List Byte) (chk : Byte),
    s.inp.buf = data ++ chk :: rest → s.inp.len = data.length + 1 → s.inp.len ≤ s.params.bufMax →
    exec .valFrame s = .next { s with out :=
      let c : Byte := BitVec.ofNat 8 (data.map BitVec.toNat).sum
      { OutPorts.zero with
        sum := c, ok := decide (c = chk), outcome := if c = chk then .ok else .checksumMismatch } }) ∧
  (∀ s : State, s.inp.len = 0 ∨ s.params.bufMax < s.inp.len →
    exec .valFrame s = .next { s with out := { OutPorts.zero with outcome := .illegal } })

/-- R64: the checksum is the truncated sum and validates for every sequence; every single-bit corruption
of the checksum byte is refused. Both are said of `csum` and `validate` for sequences of any length, and
of CSUM.GEN followed by VAL.CHK of the same bytes on the ports. -/
def Obligations.ChecksumValidatesAndCorruptionFails : Prop :=
  (∀ bytes : List Byte, csum bytes = BitVec.ofNat 8 (bytes.map BitVec.toNat).sum ∧
    validate bytes (csum bytes) = true) ∧
  (∀ (bytes : List Byte) (k : Nat), k < 8 → validate bytes (csum bytes ^^^ (1 <<< k)) = false) ∧
  (∀ s : State, s.inp.len ≤ s.params.bufMax → ∃ g : State, exec .csumGen s = .next g ∧
    (∀ s' : State, s' = { s with inp := { s.inp with chk := g.out.sum } } →
      ∃ t : State, exec .valChk s' = .next t ∧ t.out.ok = true ∧ t.out.outcome = .ok) ∧
    (∀ (s' : State) (k : Nat), k < 8 →
      s' = { s with inp := { s.inp with chk := g.out.sum ^^^ (1 <<< k) } } →
      ∃ t : State, exec .valChk s' = .next t ∧ t.out.ok = false ∧
        t.out.outcome = .checksumMismatch))

/-! ### Unit ENC -/

/-- R70: ENC.BUILD3 builds `{opcode, reg[15:8], reg[7:0], c}`, byte 0 in the low bits of the port. -/
def Obligations.EncBuild3BuildsTheFrame : Prop :=
  ∀ s : State, exec .encBuild3 s = .next { s with out :=
    let hi : Byte := BitVec.ofNat 8 (s.inp.reg.toNat / 256)
    let lo : Byte := BitVec.ofNat 8 (s.inp.reg.toNat % 256)
    let c : Byte := BitVec.ofNat 8 (s.inp.opcode.toNat + hi.toNat + lo.toNat)
    { OutPorts.zero with
      frame := (0#8 ++ c ++ lo ++ hi ++ s.inp.opcode : BitVec 40), frameLen := 4, sum := c } }

/-- R71: ENC.BUILD4 builds `{opcode, reg[15:8], reg[7:0], val, c}`. -/
def Obligations.EncBuild4BuildsTheFrame : Prop :=
  ∀ s : State, exec .encBuild4 s = .next { s with out :=
    let hi : Byte := BitVec.ofNat 8 (s.inp.reg.toNat / 256)
    let lo : Byte := BitVec.ofNat 8 (s.inp.reg.toNat % 256)
    let c : Byte := BitVec.ofNat 8 (s.inp.opcode.toNat + hi.toNat + lo.toNat + s.inp.val.toNat)
    { OutPorts.zero with
      frame := (c ++ s.inp.val ++ lo ++ hi ++ s.inp.opcode : BitVec 40), frameLen := 5, sum := c } }

/-- R72, R73, R45: the two fixed commands, `{0x22,0x00,0x08,0x2A}` and `{0x41,0x00,0x3E,0x7F}`. -/
def Obligations.FixedCommandsAreByteExact : Prop :=
  ∀ s : State,
    exec .encMeas s = .next { s with out := { OutPorts.zero with
      frame := (0x00#8 ++ 0x2A#8 ++ 0x08#8 ++ 0x00#8 ++ 0x22#8 : BitVec 40)
      frameLen := 4, sum := 0x2A } } ∧
    exec .encRdctrl s = .next { s with out := { OutPorts.zero with
      frame := (0x00#8 ++ 0x7F#8 ++ 0x3E#8 ++ 0x00#8 ++ 0x41#8 : BitVec 40)
      frameLen := 4, sum := 0x7F } }

/-- R74: ENC.WRCTRL gives `{0x31,0x00,0x3E,val,c}` with `c` the sum of the four bytes before it. -/
def Obligations.EncWrctrlWritesTheByte : Prop :=
  ∀ s : State, exec .encWrctrl s = .next { s with out :=
    let c : Byte := BitVec.ofNat 8 (0x31 + 0x00 + 0x3E + s.inp.val.toNat)
    { OutPorts.zero with
      frame := (c ++ s.inp.val ++ 0x3E#8 ++ 0x00#8 ++ 0x31#8 : BitVec 40), frameLen := 5, sum := c } }

/-- R77: ENC.WRCTRLP gives the write-control frame of the patched byte and drives `patched`. -/
def Obligations.EncWrctrlpPatchesAndWrites : Prop :=
  ∀ s : State, exec .encWrctrlp s = .next { s with out :=
    let p : Byte := if s.inp.desired then s.inp.val ||| 0x02 else s.inp.val &&& 0xFD
    let c : Byte := BitVec.ofNat 8 (0x31 + 0x00 + 0x3E + p.toNat)
    { OutPorts.zero with
      frame := (c ++ p ++ 0x3E#8 ++ 0x00#8 ++ 0x31#8 : BitVec 40)
      frameLen := 5, sum := c, patched := p } }

/-- R78: ENC.CALINT gives `{0x01,0x40,interval[15:8],interval[7:0]}` and no checksum. -/
def Obligations.EncCalintHasNoChecksum : Prop :=
  ∀ s : State, exec .encCalint s = .next { s with out :=
    let hi : Byte := BitVec.ofNat 8 (s.inp.interval.toNat / 256)
    let lo : Byte := BitVec.ofNat 8 (s.inp.interval.toNat % 256)
    { OutPorts.zero with
      frame := (0#8 ++ lo ++ hi ++ 0x40#8 ++ 0x01#8 : BitVec 40), frameLen := 4, sum := 0 } }

/-- Law L-4, from R76: bit 1 of the patched byte is the desired state and every other bit is kept;
patching again, or a byte that already agrees, changes nothing. -/
def Obligations.PatchForcesOneBit : Prop :=
  ∀ (v : Byte) (d : Bool),
    (patch v d).getLsbD 1 = d ∧ (∀ k, k ≠ 1 → (patch v d).getLsbD k = v.getLsbD k) ∧
    patch (patch v d) d = patch v d ∧ (v.getLsbD 1 = d → patch v d = v)

/-- R75, law L-3: every checksummed frame an ENC operation emits has the checksum of the bytes before it
as its last byte, and VAL.FRAME of the frame gives `ok = 1`. -/
def Obligations.EncodedFramesValidate : Prop :=
  ∀ (i : Instr) (s t u : State),
    i = .encBuild3 ∨ i = .encBuild4 ∨ i = .encMeas ∨ i = .encRdctrl ∨ i = .encWrctrl ∨ i = .encWrctrlp →
    exec i s = .next t →
    let bytes := frameBytes t.out.frame t.out.frameLen.toNat
    (∃ data : List Byte, bytes = data ++ [csum data] ∧ t.out.sum = csum data) ∧
    (5 ≤ u.params.bufMax → u.inp.buf.take bytes.length = bytes → u.inp.len = bytes.length →
      ∃ w : State, exec .valFrame u = .next w ∧ w.out.ok = true ∧ w.out.outcome = .ok ∧
        w.out.sum = t.out.sum)

/-- Spec 70 section 3 (marked as derived there), from R78: the interval frame run through VAL.FRAME is reported as a mismatch unless its low
interval byte happens to be the sum of the three bytes before it. -/
def Obligations.IntervalFrameIsNotChecksummed : Prop :=
  ∀ s t u : State, exec .encCalint s = .next t → 5 ≤ u.params.bufMax →
    u.inp.len = 4 → u.inp.buf.take 4 = frameBytes t.out.frame 4 →
    ∃ w : State, exec .valFrame u = .next w ∧
      (w.out.ok = true ↔
        (0x41 + s.inp.interval.toNat / 256) % 256 = s.inp.interval.toNat % 256)

/-! ### Unit DEC -/

/-- R89, R103: DEC.MEAS tests readiness, then the checksum, then gives the big-endian value; both flags
and the sum are driven whatever the outcome; `len` other than 4 is `ILLEGAL`. -/
def Obligations.DecMeasDecodesTheResponse : Prop :=
  (∀ (s : State) (r0 r1 r2 r3 : Byte) (rest : List Byte),
    s.inp.len = 4 → s.inp.buf = r0 :: r1 :: r2 :: r3 :: rest →
    exec .decMeas s = .next { s with out :=
      let c : Byte := BitVec.ofNat 8 (r0.toNat + r1.toNat + r2.toNat)
      let flags : OutPorts :=
        { OutPorts.zero with sum := c, ready := decide (r0.toNat % 2 = 1), ok := decide (c = r3) }
      if r0.toNat % 2 = 0 then { flags with outcome := .notReady }
      else if c ≠ r3 then { flags with outcome := .checksumMismatch }
      else { flags with outcome := .ok, value := BitVec.ofNat 16 (r1.toNat * 256 + r2.toNat) } }) ∧
  (∀ s : State, s.inp.len ≠ 4 →
    exec .decMeas s = .next { s with out := { OutPorts.zero with outcome := .illegal } })

/-- R91, R92: DEC.CTRL validates the two-byte window and gives the register bytes and bit 1 of byte 1;
on a mismatch nothing of the response is given out; `len` other than 3 is `ILLEGAL`. -/
def Obligations.DecCtrlDecodesTheResponse : Prop :=
  (∀ (s : State) (r0 r1 r2 : Byte) (rest : List Byte),
    s.inp.len = 3 → s.inp.buf = r0 :: r1 :: r2 :: rest →
    exec .decCtrl s = .next { s with out :=
      let c : Byte := BitVec.ofNat 8 (r0.toNat + r1.toNat)
      if c = r2 then
        { OutPorts.zero with
          sum := c, ok := true, outcome := .ok, reg0 := r0, reg1 := r1
          abc := decide (r1.toNat / 2 % 2 = 1) }
      else { OutPorts.zero with sum := c, ok := false, outcome := .checksumMismatch } }) ∧
  (∀ s : State, s.inp.len ≠ 3 →
    exec .decCtrl s = .next { s with out := { OutPorts.zero with outcome := .illegal } })

/-- Spec 42 section 5: DEC.WIDEN completes with `fbits` alone driven; in binary32 the pattern stands for
the integer `v16` exactly, with the sign bit clear. What a binary32 pattern stands for is general
knowledge (spec 93, G2; assumption 5). -/
def Obligations.DecWidenIsExact : Prop :=
  ∀ s : State, ∃ bits : FloatBits,
    exec .decWiden s = .next { s with out := { OutPorts.zero with fbits := bits } } ∧
    (s.params.floatFmt = .binary32 →
      binary32Value bits = some (s.inp.v16.toNat : Rat) ∧ bits.getLsbD 31 = false)

/-- D12, assumption 4 (the model's choice): in a format other than binary32 DEC.WIDEN still completes; its
pattern is a free value of the integer and the format alone. -/
def Obligations.DecWidenCompletesInAnyFormat : Prop :=
  ∀ (s : State) (tag : Nat), s.params.floatFmt = .other tag →
    exec .decWiden s = .next { s with out := { OutPorts.zero with
      fbits := Config.otherFloatBits tag s.inp.v16 } }

/-- R94: the Reading is the integer in bytes 1 and 2 of a measurement response that decodes as `OK`, with
no scaling, offset or conversion. What a binary32 pattern stands for is assumption 5. -/
def Obligations.ReadingIsTheUnscaledInteger : Prop :=
  ∀ (s t u : State) (r0 r1 r2 r3 : Byte) (rest : List Byte),
    s.inp.len = 4 → s.inp.buf = r0 :: r1 :: r2 :: r3 :: rest →
    exec .decMeas s = .next t → t.out.outcome = .ok →
    u.inp.v16 = t.out.value → u.params.floatFmt = .binary32 →
    ∃ w : State, exec .decWiden u = .next w ∧
      binary32Value w.out.fbits = some ((r1.toNat * 256 + r2.toNat : Nat) : Rat)

/-- Law L-9, from R76 and R91: a control-register response whose byte 1 was patched decodes with `abc` the
desired state. -/
def Obligations.PatchedRegisterReadsBack : Prop :=
  ∀ (s t u : State) (x c : Byte) (rest : List Byte),
    exec .encWrctrlp s = .next t → u.inp.len = 3 → u.inp.buf = x :: t.out.patched :: c :: rest →
    c = x + t.out.patched →
    ∃ w : State, exec .decCtrl u = .next w ∧ w.out.outcome = .ok ∧ w.out.abc = s.inp.desired ∧
      ∀ k, k ≠ 1 → w.out.reg1.getLsbD k = s.inp.val.getLsbD k

/-! ### The environment contract -/

/-- R119: setup starts once, with the read-control command and a fresh counter. That Setup Progress is
`ReadingControl` from the issue of the write on is the model's reading (assumption 13). The rule says only
that setup runs once per boot: that a second start event is refused, under the name `alreadyStarted`, is
the model's choice (assumption 17). -/
def Obligations.SetupStartsWithReadControl : Prop :=
  ∀ e : EnvState,
    (e.setup = .notStarted → ∃ b : State, b.params = e.block.params ∧
      let r : BusRequest := .write e.cfg.deviceAddr [0x41, 0x00, 0x3E, 0x7F]
      envStep e .start = .ok ({ e with
        setup := .readingControl, retry := 0, block := b
        pending := .transfer { task := .writeReadControl, request := r } }, [.bus r])) ∧
    (e.setup ≠ .notStarted → envStep e .start = .error .alreadyStarted)

/-- R116, R132: a poll tick with setup complete and the machine idle sends the measure command. That
Measurement Progress is `CommandSent` from the issue of the write on is the model's reading
(assumption 13); that a tick carries the time elapsed is assumption 19. -/
def Obligations.IdleTickSendsTheMeasureCommand : Prop :=
  ∀ (e : EnvState) (elapsedS : Nat),
    e.cfg.pollIntervalS ≤ elapsedS → e.setup = .complete → e.meas = .idle → ∃ b : State, b.params = e.block.params ∧
      let r : BusRequest := .write e.cfg.deviceAddr [0x22, 0x00, 0x08, 0x2A]
      envStep e (.pollTick elapsedS) = .ok ({ e with
        meas := .commandSent, retry := 0, block := b
        pending := .transfer { task := .writeMeasure, request := r } }, [.bus r])

/-- R116, R125(a), R132: any other poll tick is dropped: no state changes and nothing is asked for. That a tick before setup is complete is dropped,
like one during a cycle, is the model's reading (assumption 18); that a tick carries the time elapsed is assumption 19. -/
def Obligations.OtherTicksAreDropped : Prop :=
  ∀ (e : EnvState) (elapsedS : Nat),
    e.cfg.pollIntervalS ≤ elapsedS → e.setup ≠ .complete ∨ e.meas ≠ .idle →
    envStep e (.pollTick elapsedS) = .ok (e, [])

/-- R117, R120, R138: after a command that has a response is written, the settle delay is scheduled; the
read of exactly 4 or 3 bytes is issued when that timer fires, and not before its delay. R115: the read
belongs to the logical operation its command write began, so the Retry Counter goes on; that this holds
of the register read as R115 says it of a measurement attempt is assumption 15. When `AwaitingResult`
begins is assumption 14. That a timer event carries the time elapsed is assumption 19, and that one
before its delay is refused, under the name `timerTooEarly`, is the model's choice (assumption 17). -/
def Obligations.SettleDelayThenRead : Prop :=
  ∀ (e : EnvState) (task readTask : BusTask) (n : Nat) (addr : BitVec 7) (bytes : List Byte),
    (task = .writeMeasure ∧ readTask = .readMeasure ∧ n = 4) ∨
      (task = .writeReadControl ∧ readTask = .readControl ∧ n = 3) →
    e.pending = .transfer { task := task, request := .write addr bytes } →
    let op : BusOp := { task := readTask, request := .read e.cfg.deviceAddr n }
    let e' : EnvState := { e with
      meas := if task = .writeMeasure then .awaitingResult else e.meas
      pending := .timer e.cfg.settleDelayMs op }
    envStep e (.busReply .written) = .ok (e', [.after e.cfg.settleDelayMs]) ∧
    ∀ ms : Nat, envStep e' (.timerFired ms) =
      if e.cfg.settleDelayMs ≤ ms then .ok ({ e' with pending := .transfer op }, [.bus op.request])
      else .error .timerTooEarly

/-- R118: the measurement response ends the cycle; it publishes the widened value exactly when the device
is ready and the checksum matches, and retries nothing. The names of the reports are the model's
(assumption 20). -/
def Obligations.MeasurementResponseEndsTheCycle : Prop :=
  ∀ (e : EnvState) (addr : BitVec 7) (r0 r1 r2 r3 : Byte),
    e.pending = .transfer { task := .readMeasure, request := .read addr 4 } → ∃ b : State, b.params = e.block.params ∧
      envStep e (.busReply (.data [r0, r1, r2, r3])) = .ok ({ e with
        meas := .idle, pending := .nothing, block := b },
        if r0.toNat % 2 = 0 then [.report .notReady]
        else if (r0.toNat + r1.toNat + r2.toNat) % 256 ≠ r3.toNat then [.report .measChecksumMismatch]
        else [.publish (widenBits e.block.params.floatFmt
          (BitVec.ofNat 16 (r1.toNat * 256 + r2.toNat)))])

/-- R120, R121, R125(b): a corrupted control read completes setup without a write, and so does one that
agrees with the intent; one that differs leads to the write of byte 1 with its bit 1 patched, which is a
logical operation of its own with a fresh counter (R115, R122). The name of the report is the model's
(assumption 20). -/
def Obligations.ControlResponseDecidesSetup : Prop :=
  ∀ (e : EnvState) (addr : BitVec 7) (r0 r1 r2 : Byte),
    e.pending = .transfer { task := .readControl, request := .read addr 3 } → ∃ b : State, b.params = e.block.params ∧
      let p : Byte := if e.cfg.calEnable then r1 ||| 0x02 else r1 &&& 0xFD
      let w : BusRequest := .write e.cfg.deviceAddr [0x31, 0x00, 0x3E, p, 0x6F + p]
      envStep e (.busReply (.data [r0, r1, r2])) = .ok (
        if (r0.toNat + r1.toNat) % 256 ≠ r2.toNat then
          ({ e with setup := .complete, pending := .nothing, block := b },
            [.report .setupChecksumMismatch])
        else if decide (r1.toNat / 2 % 2 = 1) = e.cfg.calEnable then
          ({ e with setup := .complete, pending := .nothing, block := b }, [])
        else
          ({ e with
              setup := .configuringCalibration, retry := 0, block := b
              pending := .transfer { task := .writeControl, request := w } }, [.bus w]))

/-- R121: after the write-control command the interval is written when calibration is being enabled; the
interval write is best-effort, and setup completes. That the interval write starts with a fresh Retry
Counter (R115, R122), as a logical operation of its own, is the model's reading (assumption 15); the name
of its report is the model's (assumption 20). -/
def Obligations.IntervalIsWrittenWhenEnabling : Prop :=
  (∀ (e : EnvState) (addr : BitVec 7) (bytes : List Byte),
    e.pending = .transfer { task := .writeControl, request := .write addr bytes } →
    (e.cfg.calEnable = false → envStep e (.busReply .written) =
      .ok ({ e with setup := .complete, pending := .nothing }, [])) ∧
    (e.cfg.calEnable = true → e.cfg.calIntervalS ≤ 65535 → ∃ b : State, b.params = e.block.params ∧
      let w : BusRequest := .write e.cfg.deviceAddr [0x01, 0x40,
        BitVec.ofNat 8 (e.cfg.calIntervalS / 256), BitVec.ofNat 8 (e.cfg.calIntervalS % 256)]
      envStep e (.busReply .written) = .ok ({ e with
        retry := 0, block := b, pending := .transfer { task := .writeInterval, request := w } },
        [.bus w]))) ∧
  (∀ (e : EnvState) (addr : BitVec 7) (bytes : List Byte) (code : Nat),
    e.pending = .transfer { task := .writeInterval, request := .write addr bytes } →
    envStep e (.busReply .written) =
      .ok ({ e with setup := .complete, pending := .nothing }, []) ∧
    envStep e (.busReply (.transportError code)) =
      .ok ({ e with setup := .complete, pending := .nothing }, [.report .intervalWriteFailed]))

/-- R122: a transport failure increments the counter; below the ceiling the same transfer is scheduled
again after the retry delay, at the ceiling the operation's terminal failure runs and the counter is left
as it is. That the setup read is retried like the other transfers is the reading of assumption 16; the
names of the reports are the model's (assumption 20). -/
def Obligations.TransportFailureIsRetriedToTheCeiling : Prop :=
  ∀ (e : EnvState) (op : BusOp) (code : Nat),
    e.pending = .transfer op → op.task ≠ .writeInterval →
    envStep e (.busReply (.transportError code)) = .ok (
      if e.retry + 1 < e.cfg.retryCeiling then
        ({ e with retry := e.retry + 1, pending := .timer e.cfg.retryDelayMs op },
          [.after e.cfg.retryDelayMs])
      else if op.task = .writeMeasure ∨ op.task = .readMeasure then
        ({ e with retry := e.retry + 1, meas := .idle, pending := .nothing },
          [.report .measTransportFailure])
      else
        ({ e with retry := e.retry + 1, setup := .complete, pending := .nothing },
          [.report .setupAbandoned]))

/-- R115, R122, R124, R125(c): every event keeps the two machines consistent: pending work and progress
values agree, and a counter under way is 0 or below the ceiling. Which progress value goes with which
pending work is the reading of assumptions 13 and 14. -/
def Obligations.EventsKeepTheEnvironmentConsistent : Prop :=
  ∀ (e e' : EnvState) (ev : EnvEvent) (acts : List EnvAction),
    e.consistent = true → envStep e ev = .ok (e', acts) → e'.consistent = true

/-- R115, R131: the environment at boot is in its start state and consistent. -/
def Obligations.BootIsConsistent : Prop :=
  ∀ (cfg : EnvConfig) (block : State),
    (EnvState.boot cfg block).consistent = true ∧ (EnvState.boot cfg block).setup = .notStarted ∧
    (EnvState.boot cfg block).meas = .idle ∧ (EnvState.boot cfg block).retry = 0

/-- R85, R115, R123, R124: no event the collaborators may deliver, whatever the response bytes, stops the
environment: each is accepted and leads to a consistent state again, and the configuration never changes.
So the environment can run on for ever from boot. Which events those are is assumptions 17 and 19; which
progress value goes with which pending work is assumptions 13 and 14. -/
def Obligations.NoAdmittedEventIsFatal : Prop :=
  ∀ (e : EnvState) (ev : EnvEvent),
    e.consistent = true → e.cfg.wellFormed = true → ev.abides e = true →
    ∃ (e' : EnvState) (acts : List EnvAction), envStep e ev = .ok (e', acts) ∧
      e'.consistent = true ∧ e'.cfg = e.cfg

/-- R115: Setup Progress is write-once per boot: complete stays complete, and not-started is never come
back to. -/
def Obligations.SetupProgressIsWriteOnce : Prop :=
  ∀ (e e' : EnvState) (ev : EnvEvent) (acts : List EnvAction),
    e.consistent = true → envStep e ev = .ok (e', acts) →
    (e.setup = .complete → e'.setup = .complete) ∧
    (e.setup ≠ .notStarted → e'.setup ≠ .notStarted)

/-- R124, R125(a): a transfer is started only when none is in flight (a reply ends the one that was), at
most one by an event, and it is then the one in flight. -/
def Obligations.AtMostOneTransferInFlight : Prop :=
  ∀ (e e' : EnvState) (ev : EnvEvent) (acts : List EnvAction) (r : BusRequest),
    e.consistent = true → envStep e ev = .ok (e', acts) → .bus r ∈ acts →
    acts = [.bus r] ∧ (∃ op : BusOp, e'.pending = .transfer op ∧ op.request = r) ∧
    (∀ op : BusOp, e.pending = .transfer op → ∃ reply : BusReply, ev = .busReply reply)

/-- R118, R133: what is published is the widened value of a ready response with a matching checksum, and
of nothing else. -/
def Obligations.OnlyValidatedReadingsArePublished : Prop :=
  ∀ (e e' : EnvState) (ev : EnvEvent) (acts : List EnvAction) (f : FloatBits),
    envStep e ev = .ok (e', acts) → .publish f ∈ acts →
    ∃ r0 r1 r2 r3 : Byte, ev = .busReply (.data [r0, r1, r2, r3]) ∧ r0.toNat % 2 = 1 ∧
      (r0.toNat + r1.toNat + r2.toNat) % 256 = r3.toNat ∧
      f = widenBits e.block.params.floatFmt (BitVec.ofNat 16 (r1.toNat * 256 + r2.toNat))

/-- R115, R122, R125(c): the Retry Counter belongs to one logical operation. While the pending work stays
with an operation the counter goes up by one on each transport failure and on nothing else, from the
command write through the settle delay to the read; when another operation has begun it is 0. That a
register read takes in its command write, and that the interval write is an operation of its own, are the
readings of assumption 15. -/
def Obligations.RetryCounterSpansTheLogicalOperation : Prop :=
  ∀ (e e' : EnvState) (ev : EnvEvent) (acts : List EnvAction) (op' : BusOp),
    e.consistent = true → envStep e ev = .ok (e', acts) → e'.pending.operation = some op' →
    (∀ op : BusOp, e.pending.operation = some op → op.task.logicalOp = op'.task.logicalOp →
      (∀ code : Nat, ev = .busReply (.transportError code) → e'.retry = e.retry + 1) ∧
      ((∀ code : Nat, ev ≠ .busReply (.transportError code)) → e'.retry = e.retry)) ∧
    ((∀ op : BusOp, e.pending.operation = some op → op.task.logicalOp ≠ op'.task.logicalOp) →
      e'.retry = 0)
end

