-- ==== Sys2Proof/Laws/State.lean ====
section
/-! SUPPORT. What each update of the state does to each field, true by unfolding, so that no later proof
unfolds a record update; and what `answer` can answer. -/

namespace Sys2Proof.Machine

@[simp] theorem drive_out (s : State) (o : OutPorts) : (drive s o).out = o := rfl
@[simp] theorem drive_inp (s : State) (o : OutPorts) : (drive s o).inp = s.inp := rfl
@[simp] theorem drive_params (s : State) (o : OutPorts) : (drive s o).params = s.params := rfl
@[simp] theorem drive_drive (s : State) (o o' : OutPorts) : drive (drive s o) o' = drive s o' := rfl

@[simp] theorem zero_frame : OutPorts.zero.frame = 0 := rfl
@[simp] theorem zero_frameLen : OutPorts.zero.frameLen = 0 := rfl
@[simp] theorem zero_sum : OutPorts.zero.sum = 0 := rfl
@[simp] theorem zero_ok : OutPorts.zero.ok = false := rfl
@[simp] theorem zero_ready : OutPorts.zero.ready = false := rfl
@[simp] theorem zero_abc : OutPorts.zero.abc = false := rfl
@[simp] theorem zero_value : OutPorts.zero.value = 0 := rfl
@[simp] theorem zero_reg0 : OutPorts.zero.reg0 = 0 := rfl
@[simp] theorem zero_reg1 : OutPorts.zero.reg1 = 0 := rfl
@[simp] theorem zero_patched : OutPorts.zero.patched = 0 := rfl
@[simp] theorem zero_fbits : OutPorts.zero.fbits = 0 := rfl
@[simp] theorem zero_outcome : OutPorts.zero.outcome = .ok := rfl

/-- The bare `ILLEGAL` outputs carry the outcome `ILLEGAL`. -/
@[simp] theorem illegalOut_outcome : illegalOut.outcome = .illegal := rfl

@[simp] theorem presentInputs_inp (s : State) (i : InPorts) : (presentInputs s i).inp = i := rfl
@[simp] theorem presentInputs_out (s : State) (i : InPorts) : (presentInputs s i).out = s.out := rfl
@[simp] theorem presentInputs_params (s : State) (i : InPorts) :
    (presentInputs s i).params = s.params := rfl

@[simp] theorem placeOp_op (s : State) (op : BitVec 4) : (placeOp s op).inp.op = op := rfl
@[simp] theorem placeOp_out (s : State) (op : BitVec 4) : (placeOp s op).out = s.out := rfl
@[simp] theorem placeOp_params (s : State) (op : BitVec 4) : (placeOp s op).params = s.params := rfl
@[simp] theorem placeOp_buf (s : State) (op : BitVec 4) : (placeOp s op).inp.buf = s.inp.buf := rfl
@[simp] theorem placeOp_len (s : State) (op : BitVec 4) : (placeOp s op).inp.len = s.inp.len := rfl
@[simp] theorem placeOp_acc (s : State) (op : BitVec 4) : (placeOp s op).inp.acc = s.inp.acc := rfl
@[simp] theorem placeOp_d (s : State) (op : BitVec 4) : (placeOp s op).inp.d = s.inp.d := rfl
@[simp] theorem placeOp_chk (s : State) (op : BitVec 4) : (placeOp s op).inp.chk = s.inp.chk := rfl
@[simp] theorem placeOp_opcode (s : State) (op : BitVec 4) :
    (placeOp s op).inp.opcode = s.inp.opcode := rfl
@[simp] theorem placeOp_reg (s : State) (op : BitVec 4) : (placeOp s op).inp.reg = s.inp.reg := rfl
@[simp] theorem placeOp_val (s : State) (op : BitVec 4) : (placeOp s op).inp.val = s.inp.val := rfl
@[simp] theorem placeOp_desired (s : State) (op : BitVec 4) :
    (placeOp s op).inp.desired = s.inp.desired := rfl
@[simp] theorem placeOp_interval (s : State) (op : BitVec 4) :
    (placeOp s op).inp.interval = s.inp.interval := rfl
@[simp] theorem placeOp_v16 (s : State) (op : BitVec 4) : (placeOp s op).inp.v16 = s.inp.v16 := rfl

@[simp] theorem fetchOp_placeOp (s : State) (op : BitVec 4) : fetchOp (placeOp s op) = op := rfl
@[simp] theorem fetchOp_drive (s : State) (o : OutPorts) : fetchOp (drive s o) = fetchOp s := rfl

/-- `answer` always answers the state with the given outputs driven. -/
@[simp] theorem answer_eq_next_iff (s t : State) (o : OutPorts) :
    answer s o = .next t ↔ t = drive s o := by
  unfold answer
  exact ⟨fun h => by cases h; rfl, fun h => h ▸ rfl⟩

/-- `answerIllegal` always answers the state with the bare `ILLEGAL` outputs. -/
@[simp] theorem answerIllegal_eq_next_iff (s t : State) :
    answerIllegal s = .next t ↔ t = drive s illegalOut := answer_eq_next_iff s t illegalOut

end Sys2Proof.Machine
end

