-- ==== Sys2Proof/Laws/Environment.lean ====
section
/-! SUPPORT. What the shared operations of the environment can do, once each. -/

namespace Sys2Proof.Machine

/-- An invocation answers a block state exactly when the block's step does. -/
theorem invoke_eq_ok_iff (v : Invocation) (b b' : State) :
    invoke v b = .ok b' ↔ step (presentInputs b (v.present b.inp)) = .next b' := by
  unfold invoke
  split <;> simp_all

/-- Starting a write puts that write in flight with a fresh counter; nothing else of the environment
changes but the block. -/
theorem startWrite_eq_ok_iff (e : EnvState) (task : BusTask) (v : Invocation)
    (r : EnvState × List EnvAction) :
    startWrite e task v = .ok r ↔ ∃ b, invoke v e.block = .ok b ∧
      r = issue { e with block := b, retry := 0 }
        (frameWrite { e with block := b, retry := 0 } task) := by
  unfold startWrite
  cases h : invoke v e.block <;> simp [Except.map, eq_comm]

@[simp] theorem issue_snd (e : EnvState) (op : BusOp) : (issue e op).2 = [.bus op.request] := rfl
@[simp] theorem issue_pending (e : EnvState) (op : BusOp) :
    (issue e op).1.pending = .transfer op := rfl
@[simp] theorem issue_setup (e : EnvState) (op : BusOp) : (issue e op).1.setup = e.setup := rfl
@[simp] theorem issue_meas (e : EnvState) (op : BusOp) : (issue e op).1.meas = e.meas := rfl
@[simp] theorem issue_retry (e : EnvState) (op : BusOp) : (issue e op).1.retry = e.retry := rfl
@[simp] theorem issue_cfg (e : EnvState) (op : BusOp) : (issue e op).1.cfg = e.cfg := rfl

/-- Waiting for a response schedules its read and leaves the counter; nothing else changes. -/
@[simp] theorem settleThenRead_eq (e : EnvState) (task : BusTask) (n : Nat) :
    settleThenRead e task n =
      ({ e with
          pending := .timer e.cfg.settleDelayMs
            { task := task, request := .read e.cfg.deviceAddr n } },
        [.after e.cfg.settleDelayMs]) := rfl

@[simp] theorem operation_nothing : Pending.nothing.operation = none := rfl
@[simp] theorem operation_transfer (op : BusOp) : (Pending.transfer op).operation = some op := rfl
@[simp] theorem operation_timer (ms : Nat) (op : BusOp) : (Pending.timer ms op).operation = some op := rfl

@[simp] theorem finishMeas_eq (e : EnvState) (acts : List EnvAction) :
    finishMeas e acts = ({ e with meas := .idle, pending := .nothing }, acts) := rfl
@[simp] theorem finishSetup_eq (e : EnvState) (acts : List EnvAction) :
    finishSetup e acts = ({ e with setup := .complete, pending := .nothing }, acts) := rfl

end Sys2Proof.Machine
end

