-- ==== Sys2Proof/Laws/Ops.lean ====
section
/-! SUPPORT. The small lemmas of the shared operations: the checksum loop, the packing, the byte split. -/

namespace Sys2Proof.Machine

@[simp] theorem csum_nil : csum [] = 0 := rfl

/-- The loop of R60 from its far end: the last byte is added last. -/
theorem csum_append_singleton (bytes : List Byte) (b : Byte) :
    csum (bytes ++ [b]) = csum bytes + b := by
  simp [csum, csumAdd, List.foldl_append]

/-- The loop of R60 started from any sum. -/
theorem foldl_csumAdd (bytes : List Byte) (a : Byte) :
    bytes.foldl csumAdd a = a + csum bytes := by
  induction bytes generalizing a with
  | nil => simp
  | cons b bs ih =>
    have h := ih (csumAdd 0 b)
    simp only [csum, List.foldl_cons] at *
    rw [ih (csumAdd a b), h]
    simp only [csumAdd]
    rw [show (0 : Byte) + b = b from BitVec.zero_add b, BitVec.add_assoc]

@[simp] theorem csum_cons (b : Byte) (bytes : List Byte) : csum (b :: bytes) = b + csum bytes := by
  simpa [csum, csumAdd] using foldl_csumAdd bytes b

@[simp] theorem truncatedSum_nil : truncatedSum [] = 0 := rfl

@[simp] theorem truncatedSum_cons (b : Byte) (bytes : List Byte) :
    truncatedSum (b :: bytes) = b + truncatedSum bytes := by
  simp [truncatedSum, BitVec.ofNat_add]

@[simp] theorem packNat_nil : packNat [] = 0 := rfl

@[simp] theorem packNat_cons (b : Byte) (bs : List Byte) :
    packNat (b :: bs) = b.toNat + 256 * packNat bs := rfl

/-- A packed sequence fits the bits of its bytes. -/
theorem packNat_lt (bs : List Byte) : packNat bs < 256 ^ bs.length := by
  induction bs with
  | nil => simp
  | cons b bs ih =>
    have hb : b.toNat < 256 := b.isLt
    simp only [packNat_cons, List.length_cons, Nat.pow_succ]
    omega

/-- Byte `i` of a packed sequence (R17). -/
theorem packNat_byte (bs : List Byte) (i : Nat) :
    packNat bs / 256 ^ i % 256 = (bs.getD i 0).toNat := by
  induction bs generalizing i with
  | nil => simp
  | cons b bs ih =>
    have hb : b.toNat < 256 := b.isLt
    cases i with
    | zero => simp; omega
    | succ i =>
      have h : (b.toNat + 256 * packNat bs) / 256 ^ (i + 1) = packNat bs / 256 ^ i := by
        rw [Nat.pow_succ', ← Nat.div_div_eq_div_mul]
        congr 1
        omega
      rw [packNat_cons, h, ih]
      simp

@[simp] theorem hiByte_toNat (v : Half) : (hiByte v).toNat = v.toNat / 256 := by
  have := v.isLt
  simp [hiByte, Nat.shiftRight_eq_div_pow]
  omega

@[simp] theorem loByte_toNat (v : Half) : (loByte v).toNat = v.toNat % 256 := by
  simp [loByte]

@[simp] theorem bigEndian_toNat (hi lo : Byte) : (bigEndian hi lo).toNat = hi.toNat * 256 + lo.toNat := by
  have h := Nat.shiftLeft_add_eq_or_of_lt lo.isLt hi.toNat
  rw [Nat.shiftLeft_eq] at h
  show (hi ++ lo).toNat = _
  rw [BitVec.toNat_append, Nat.shiftLeft_eq, ← h]

/-- R26, R46: splitting a field and joining it again gives the field. -/
theorem bigEndian_split (v : Half) : bigEndian (hiByte v) (loByte v) = v := by
  apply BitVec.eq_of_toNat_eq
  simp
  omega

end Sys2Proof.Machine
end

