-- ==== Sys2Proof/Laws/Exec.lean ====
section
/-! SUPPORT. What each meaning answers, once, in the terms of `answer`: the provers cite these and do not
unfold a meaning. -/

namespace Sys2Proof.Machine

theorem exec_reserved0 (s : State) : exec .reserved0 s = answer s illegalOut := rfl

theorem exec_reservedF (s : State) : exec .reservedF s = answer s illegalOut := rfl

theorem exec_csumStep (s : State) :
    exec .csumStep s = answer s { OutPorts.zero with sum := s.inp.acc + s.inp.d } := rfl

theorem exec_csumGen (s : State) :
    exec .csumGen s = answer s (if s.inp.len ≤ s.params.bufMax then
      { OutPorts.zero with sum := csum (s.inp.buf.take s.inp.len) } else illegalOut) := by
  show execCsumGen s = _
  unfold execCsumGen
  split <;> rfl

theorem exec_valChk (s : State) :
    exec .valChk s = answer s (if s.inp.len ≤ s.params.bufMax then
      checkOut (s.inp.buf.take s.inp.len) s.inp.chk else illegalOut) := by
  show execValChk s = _
  unfold execValChk
  split <;> rfl

theorem exec_valFrame (s : State) :
    exec .valFrame s = answer s (if 1 ≤ s.inp.len ∧ s.inp.len ≤ s.params.bufMax then
      checkOut (s.inp.buf.take (s.inp.len - 1)) (s.inp.buf.getD (s.inp.len - 1) 0)
      else illegalOut) := by
  show execValFrame s = _
  unfold execValFrame
  split <;> rfl

theorem exec_encBuild3 (s : State) :
    exec .encBuild3 s = answer s (frameOut (buildCommand s.inp.opcode s.inp.reg none)
      (csum (commandData s.inp.opcode s.inp.reg none))) := rfl

theorem exec_encBuild4 (s : State) :
    exec .encBuild4 s = answer s (frameOut (buildCommand s.inp.opcode s.inp.reg (some s.inp.val))
      (csum (commandData s.inp.opcode s.inp.reg (some s.inp.val)))) := rfl

theorem exec_encMeas (s : State) : exec .encMeas s = answer s (frameOut measureFrame 0x2A) := rfl

theorem exec_encRdctrl (s : State) :
    exec .encRdctrl s = answer s (frameOut readControlFrame 0x7F) := rfl

theorem exec_encWrctrl (s : State) :
    exec .encWrctrl s =
      answer s (frameOut (writeControlFrame s.inp.val) (writeControlSum s.inp.val)) := rfl

theorem exec_encWrctrlp (s : State) :
    exec .encWrctrlp s = answer s
      { frameOut (writeControlFrame (patch s.inp.val s.inp.desired))
          (writeControlSum (patch s.inp.val s.inp.desired)) with
        patched := patch s.inp.val s.inp.desired } := rfl

theorem exec_encCalint (s : State) :
    exec .encCalint s = answer s (frameOut (calIntervalFrame s.inp.interval) 0) := rfl

theorem exec_decMeas (s : State) :
    exec .decMeas s = answer s (if s.inp.len = 4 then
      measOut (s.inp.buf.getD 0 0) (s.inp.buf.getD 1 0) (s.inp.buf.getD 2 0) (s.inp.buf.getD 3 0)
      else illegalOut) := by
  show execDecMeas s = _
  unfold execDecMeas
  split <;> rfl

theorem exec_decCtrl (s : State) :
    exec .decCtrl s = answer s (if s.inp.len = 3 then
      ctrlOut (s.inp.buf.getD 0 0) (s.inp.buf.getD 1 0) (s.inp.buf.getD 2 0) else illegalOut) := by
  show execDecCtrl s = _
  unfold execDecCtrl
  split <;> rfl

theorem exec_decWiden (s : State) :
    exec .decWiden s =
      answer s { OutPorts.zero with fbits := widenBits s.params.floatFmt s.inp.v16 } := rfl

end Sys2Proof.Machine
end

