-- ==== Sys2Proof/Laws/PerInstr.lean ====
section
/-! SUPPORT. The per-instruction family `OpCode`: every constructor is well formed, its op code is that of
R52's table read back by the decoder, and its encoding is one byte. -/

namespace Sys2Proof.Laws.OpCode

/-- An instruction is well formed, and its op code, as a byte alone, decodes to it. -/
def Statement (i : Instr) : Prop :=
  i.wellFormed = true ∧ decodeOp (encodeOp i) = i ∧ decode (encode i) = .ok (i, [])

theorem reserved0 : Statement .reserved0 := ⟨rfl, rfl, rfl⟩
theorem csumStep : Statement .csumStep := ⟨rfl, rfl, rfl⟩
theorem csumGen : Statement .csumGen := ⟨rfl, rfl, rfl⟩
theorem valChk : Statement .valChk := ⟨rfl, rfl, rfl⟩
theorem valFrame : Statement .valFrame := ⟨rfl, rfl, rfl⟩
theorem encBuild3 : Statement .encBuild3 := ⟨rfl, rfl, rfl⟩
theorem encBuild4 : Statement .encBuild4 := ⟨rfl, rfl, rfl⟩
theorem encMeas : Statement .encMeas := ⟨rfl, rfl, rfl⟩
theorem encRdctrl : Statement .encRdctrl := ⟨rfl, rfl, rfl⟩
theorem encWrctrl : Statement .encWrctrl := ⟨rfl, rfl, rfl⟩
theorem encWrctrlp : Statement .encWrctrlp := ⟨rfl, rfl, rfl⟩
theorem encCalint : Statement .encCalint := ⟨rfl, rfl, rfl⟩
theorem decMeas : Statement .decMeas := ⟨rfl, rfl, rfl⟩
theorem decCtrl : Statement .decCtrl := ⟨rfl, rfl, rfl⟩
theorem decWiden : Statement .decWiden := ⟨rfl, rfl, rfl⟩
theorem reservedF : Statement .reservedF := ⟨rfl, rfl, rfl⟩

end Sys2Proof.Laws.OpCode
end

