-- ==== Sys2Proof/Tests/Slice0.lean ====
section
/-! SUPPORT. The model's own tests, one step each on a small state. Expected results are the rows of spec
95 (named in each comment), the words of R52's table, and, for the witnesses, states that meet the
hypotheses of the statements in Certificates/Slice0/Obligations.lean. -/

namespace Sys2Proof.Tests

open Sys2Proof.Machine

/-- The reset state with other values on the input ports. -/
def presented (f : InPorts → InPorts) : State := presentInputs State.reset (f State.reset.inp)

/-- The outputs of an operation, if it completes. -/
def outOf (o : Host.Outcome State Fault Refusal) : Option OutPorts :=
  match o with
  | .next s => some s.out
  | .fault _ => none
  | .refused _ => none

/-- The outputs of one operation on the presented inputs. -/
def run (i : Instr) (f : InPorts → InPorts) : Option OutPorts := outOf (exec i (presented f))

/-! ### Well-formedness: each check refuses an ill-formed term -/

theorem test_opCode_too_wide : opCodeFits 16 = false := by decide
theorem test_bufMax_too_small : ({ bufMax := 4, floatFmt := .binary32 } : Params).wellFormed = false := by
  decide
theorem test_bufMax_standard : Params.standard.wellFormed = true := by decide
theorem test_lenW_standard : Params.standard.lenW = 3 := by decide
theorem test_len_above_bufMax : Instr.lenAdmitted .csumGen 5 6 = false := by decide
theorem test_len_above_bufMax_chk : Instr.lenAdmitted .valChk 5 6 = false := by decide
theorem test_len_zero_frame : Instr.lenAdmitted .valFrame 5 0 = false := by decide
theorem test_len_meas : Instr.lenAdmitted .decMeas 5 3 = false := by decide
theorem test_len_ctrl : Instr.lenAdmitted .decCtrl 5 4 = false := by decide
theorem test_interval_too_wide :
    ({ deviceAddr := 0, calEnable := true, calIntervalS := 65536, pollIntervalS := 1, retryCeiling := 1,
       retryDelayMs := 1, settleDelayMs := 1 } : EnvConfig).wellFormed = false := by decide

/-! ### Decoding: words written out from R52's table, bit by bit -/

theorem test_decode_csum :
    decode [0b00000001] = .ok (.csumStep, []) ∧ decode [0b00000010] = .ok (.csumGen, []) := ⟨rfl, rfl⟩
theorem test_decode_val :
    decode [0b00000011] = .ok (.valChk, []) ∧ decode [0b00000100] = .ok (.valFrame, []) := ⟨rfl, rfl⟩
theorem test_decode_enc :
    decode [0b00000101] = .ok (.encBuild3, []) ∧ decode [0b00000110] = .ok (.encBuild4, []) ∧
    decode [0b00000111] = .ok (.encMeas, []) ∧ decode [0b00001000] = .ok (.encRdctrl, []) ∧
    decode [0b00001001] = .ok (.encWrctrl, []) ∧ decode [0b00001010] = .ok (.encWrctrlp, []) ∧
    decode [0b00001011] = .ok (.encCalint, []) := ⟨rfl, rfl, rfl, rfl, rfl, rfl, rfl⟩
theorem test_decode_dec :
    decode [0b00001100] = .ok (.decMeas, []) ∧ decode [0b00001101] = .ok (.decCtrl, []) ∧
    decode [0b00001110] = .ok (.decWiden, []) := ⟨rfl, rfl, rfl⟩
theorem test_decode_reserved :
    decode [0b00000000] = .ok (.reserved0, []) ∧ decode [0b00001111] = .ok (.reservedF, []) := ⟨rfl, rfl⟩
theorem test_decode_refuses :
    decode [0b00010001] = .error (.notAnOpCode 0x11) ∧ decode [] = .error .noByte := ⟨rfl, rfl⟩
theorem test_decodeTableWord :
    decodeTableWord 8 0x7 = some .encMeas ∧ decodeTableWord 4 0xF = some .reservedF ∧
    decodeTableWord 8 0x17 = none := by decide
/-- A word placed on the `op` port runs as the next step (V-EM1). -/
theorem test_withFetchWord :
    (outOf (step (State.reset.withFetchWord 8 0x7))).map OutPorts.frame = some 0x002A080022 := by decide

/-! ### One or two rows of spec 95 per operation -/

/-- V-IL1, V-IL2. -/
theorem test_reserved :
    run .reserved0 id = some { OutPorts.zero with outcome := .illegal } ∧
    run .reservedF id = some { OutPorts.zero with outcome := .illegal } := by decide
/-- V-CS3. -/
theorem test_csumStep :
    run .csumStep (fun p => { p with acc := 0x22, d := 0x08 }) =
      some { OutPorts.zero with sum := 0x2A } := by decide
/-- V-CS4: the carry is discarded. -/
theorem test_csumStep_wraps :
    run .csumStep (fun p => { p with acc := 0xFF, d := 0x01 }) =
      some { OutPorts.zero with sum := 0x00 } := by decide
/-- V-CG15: bytes at and beyond `len` are ignored. -/
theorem test_csumGen_ignores_tail :
    run .csumGen (fun p => { p with buf := [0x22, 0x00, 0x08, 0xEE, 0xEE], len := 3 }) =
      some { OutPorts.zero with sum := 0x2A } := by decide
/-- V-CG11 and V-CG14. -/
theorem test_csumGen_edges :
    (run .csumGen (fun p => { p with buf := [0x12, 0x34, 0x56, 0x78, 0x9A], len := 5 })).map
      OutPorts.sum = some 0xAE ∧
    run .csumGen (fun p => { p with len := 6 }) =
      some { OutPorts.zero with outcome := .illegal } := by decide
/-- V-VC1. -/
theorem test_valChk :
    run .valChk (fun p => { p with buf := [0x01, 0x03, 0x84, 0, 0], len := 3, chk := 0x88 }) =
      some { OutPorts.zero with sum := 0x88, ok := true } := by decide
/-- V-VC3: bit 7 of the checksum flipped. -/
theorem test_valChk_mismatch :
    run .valChk (fun p => { p with buf := [0x01, 0x03, 0x84, 0, 0], len := 3, chk := 0x08 }) =
      some { OutPorts.zero with sum := 0x88, outcome := .checksumMismatch } := by decide
/-- V-VF6: all ones, two bytes. -/
theorem test_valFrame :
    run .valFrame (fun p => { p with buf := [0xFF, 0xFF, 0, 0, 0], len := 2 }) =
      some { OutPorts.zero with sum := 0xFF, ok := true } := by decide
/-- V-VF10: the interval frame has no checksum. -/
theorem test_valFrame_interval :
    run .valFrame (fun p => { p with buf := [0x01, 0x40, 0x03, 0xE8, 0], len := 4 }) =
      some { OutPorts.zero with sum := 0x44, outcome := .checksumMismatch } := by decide
/-- V-B3-5: the high byte of `reg` at index 1. -/
theorem test_encBuild3 :
    run .encBuild3 (fun p => { p with opcode := 0x10, reg := 0x1234 }) =
      some { OutPorts.zero with frame := 0x0056341210, frameLen := 4, sum := 0x56 } := by decide
/-- V-B4-5. -/
theorem test_encBuild4 :
    run .encBuild4 (fun p => { p with opcode := 0x12, reg := 0x3456, val := 0x78 }) =
      some { OutPorts.zero with frame := 0x1478563412, frameLen := 5, sum := 0x14 } := by decide
/-- V-EM1. -/
theorem test_encMeas :
    run .encMeas id = some { OutPorts.zero with frame := 0x002A080022, frameLen := 4, sum := 0x2A } := by
  decide
/-- V-ER1. -/
theorem test_encRdctrl :
    run .encRdctrl id =
      some { OutPorts.zero with frame := 0x007F3E0041, frameLen := 4, sum := 0x7F } := by decide
/-- V-EW4: the checksum wraps to 0. -/
theorem test_encWrctrl :
    run .encWrctrl (fun p => { p with val := 0x91 }) =
      some { OutPorts.zero with frame := 0x00913E0031, frameLen := 5, sum := 0x00 } := by decide
/-- V-EP5: set, other bits kept. -/
theorem test_encWrctrlp_sets :
    run .encWrctrlp (fun p => { p with val := 0x55, desired := true }) =
      some { OutPorts.zero with
        frame := 0xC6573E0031, frameLen := 5, sum := 0xC6, patched := 0x57 } := by decide
/-- V-EP6: cleared, other bits kept. -/
theorem test_encWrctrlp_clears :
    run .encWrctrlp (fun p => { p with val := 0xAA, desired := false }) =
      some { OutPorts.zero with
        frame := 0x17A83E0031, frameLen := 5, sum := 0x17, patched := 0xA8 } := by decide
/-- V-EI1: the source's example, 1000 s. -/
theorem test_encCalint :
    run .encCalint (fun p => { p with interval := 1000 }) =
      some { OutPorts.zero with frame := 0x00E8034001, frameLen := 4, sum := 0 } := by decide
/-- V-DM8: an unassigned status bit is ignored but summed; bytes 1 and 2 are big-endian. -/
theorem test_decMeas :
    run .decMeas (fun p => { p with buf := [0x81, 0x04, 0xD2, 0x57, 0], len := 4 }) =
      some { OutPorts.zero with sum := 0x57, ready := true, ok := true, value := 1234 } := by decide
/-- V-DM5: both tests fail, readiness wins. -/
theorem test_decMeas_both_fail :
    run .decMeas (fun p => { p with buf := [0x00, 0x03, 0x84, 0x88, 0], len := 4 }) =
      some { OutPorts.zero with sum := 0x87, outcome := .notReady } := by decide
/-- V-DC3: the calibration bit is in byte 1, not byte 0. -/
theorem test_decCtrl :
    run .decCtrl (fun p => { p with buf := [0x02, 0x00, 0x02, 0, 0], len := 3 }) =
      some { OutPorts.zero with sum := 0x02, ok := true, reg0 := 0x02 } := by decide
/-- V-DC8: a mismatch gates `abc` although byte 1 has bit 1 set. -/
theorem test_decCtrl_gated :
    run .decCtrl (fun p => { p with buf := [0x00, 0x02, 0x03, 0, 0], len := 3 }) =
      some { OutPorts.zero with sum := 0x02, outcome := .checksumMismatch } := by decide
/-- V-DW8. -/
theorem test_decWiden :
    run .decWiden (fun p => { p with v16 := 900 }) =
      some { OutPorts.zero with fbits := 0x44610000 } := by decide
/-- V-DW12, V-DW2 and V-DW1. -/
theorem test_widen_edges :
    widenBinary32 65535 = 0x477FFF00 ∧ widenBinary32 1 = 0x3F800000 ∧ widenBinary32 0 = 0 := by decide

/-! ### Witnesses: states that meet the hypotheses of the statements -/

/-- OpCodesRoundTrip. -/
theorem witness_wellFormed_instr : Instr.wellFormed .reservedF = true := by decide
/-- PresentedOperandsReadBack: a sequence as long as the port. -/
theorem witness_fits : (Invocation.csumGen [1, 2, 3, 4, 5]).fits 5 = true := by decide
/-- PresentedOperandsReadBack at the lower edge: a frame that is its checksum byte alone. -/
theorem witness_fits_one : (Invocation.valFrame [] 0).fits 5 = true := by decide
/-- StepRunsDecodedInstruction. -/
theorem witness_op_decodes :
    decode [(fetchOp (placeOp State.reset 0xE)).zeroExtend 8] = .ok (.decWiden, []) := rfl
/-- ResetOutputsAreIllegal. -/
theorem witness_op_zero : State.reset.inp.op = 0 := rfl
/-- StepForgetsTheOutputs: two states with the same inputs and different outputs, and their steps. -/
theorem witness_forgets :
    ∃ s s' t t' : State, s.params = s'.params ∧ s.inp = s'.inp ∧ s.out ≠ s'.out ∧
      step s = .next t ∧ step s' = .next t' :=
  ⟨State.reset, drive State.reset OutPorts.zero, _, _, rfl, rfl, by decide, rfl, rfl⟩
/-- OnlyNamedInputsMatter: bytes beyond `len` and another port differ. -/
theorem witness_agree :
    ∃ s s' t t' : State, s.params = s'.params ∧ s.inp ≠ s'.inp ∧
      (∀ p ∈ (operandFormat .csumGen).reads, p.agree s.inp s'.inp = true) ∧
      exec .csumGen s = .next t ∧ exec .csumGen s' = .next t' :=
  ⟨presented (fun p => { p with len := 1, buf := [7, 1, 0, 0, 0] }),
   presented (fun p => { p with len := 1, buf := [7, 2, 0, 0, 0], chk := 9 }),
   _, _, rfl, by decide, by decide, rfl, rfl⟩
/-- UnnamedOutputsAreZero: a port the operation does not name. -/
theorem witness_unnamed : OutPort.frame ∉ resultPorts .csumStep := by decide
/-- IllegalExactlyWhenMalformed, both sides of the equivalence. -/
theorem witness_illegal_and_legal :
    (run .valFrame (fun p => { p with len := 0 })).map OutPorts.outcome = some .illegal ∧
    (run .valFrame (fun p => { p with len := 5 })).map OutPorts.outcome = some .ok := by decide
/-- OutOfRangeLengthAnswersIllegal: the first length above the port, and those beside 4 and 3. -/
theorem witness_out_of_range :
    Params.standard.bufMax < 6 ∧ (presented (fun p => { p with len := 6 })).inp.len = 6 ∧
    (presented id).inp.len = 0 ∧ (presented (fun p => { p with len := 5 })).inp.len ≠ 4 ∧
    (presented (fun p => { p with len := 4 })).inp.len ≠ 3 := by decide
/-- PayloadIsGated: an outcome other than `OK`. -/
theorem witness_gated :
    ∃ t : State, exec .decCtrl (presented (fun p => { p with buf := [0, 2, 3], len := 3 })) = .next t ∧
      t.out.outcome ≠ .ok := ⟨_, rfl, by decide⟩
/-- StepKeepsWellFormed. -/
theorem witness_wellFormed_state :
    ∃ t : State, State.reset.wellFormed = true ∧ step State.reset = .next t := ⟨_, by decide, rfl⟩
/-- BytesStandAtTheirPortBits: the last byte of the longest frame and of `buf`. -/
theorem witness_port_bits :
    ([1, 2, 3, 4, 5] : List Byte).length ≤ 5 ∧ 4 < 5 ∧
    State.reset.inp.buf.length = State.reset.params.bufMax ∧ 4 < State.reset.params.bufMax := by decide
/-- IdentitiesBetweenOperations: `len` at both edges of VAL.FRAME's range. -/
theorem witness_frame_len :
    (1 ≤ (presented (fun p => { p with len := 1 })).inp.len ∧ 1 ≤ State.reset.params.bufMax) ∧
    (1 ≤ (presented (fun p => { p with len := 5 })).inp.len ∧ 5 ≤ State.reset.params.bufMax) := by decide
/-- CsumGenSumsTheFirstBytes, ValChkComparesTheSum: each clause at its edge. -/
theorem witness_len_edge :
    (presented (fun p => { p with len := 5 })).inp.len ≤ State.reset.params.bufMax ∧
    State.reset.params.bufMax < (presented (fun p => { p with len := 6 })).inp.len := by decide
/-- CsumStepAddsModulo256, the loop body. -/
theorem witness_acc_is_csum :
    (presented (fun p => { p with acc := 0x22 })).inp.acc = csum [0x22, 0x00] := by decide
/-- CsumOfConcatenationAndPermutation: the swap the checksum cannot detect. -/
theorem witness_perm : ([0x03, 0x84] : List Byte).Perm [0x84, 0x03] := List.Perm.swap _ _ _
/-- DataBitFlipChangesTheChecksum: the top bit of the last byte. -/
theorem witness_data_bit : 1 < ([0x01, 0x03] : List Byte).length ∧ 7 < 8 := by decide
/-- ValFrameSplitsOffTheLastByte: one byte alone, and both ways out of range. -/
theorem witness_valFrame :
    (let s := presented (fun p => { p with buf := [0x2A], len := 1 })
     s.inp.buf = [] ++ 0x2A :: [] ∧ s.inp.len = ([] : List Byte).length + 1 ∧
       s.inp.len ≤ s.params.bufMax) ∧
    (presented id).inp.len = 0 ∧
    State.reset.params.bufMax < (presented (fun p => { p with len := 6 })).inp.len := by decide
/-- ChecksumValidatesAndCorruptionFails. -/
theorem witness_chk :
    7 < 8 ∧ (presented (fun p => { p with buf := [1, 3], len := 2 })).inp.len ≤ 5 ∧
    State.reset.params.bufMax = 5 := by decide
/-- EncodedFramesValidate: the measure frame put on `buf`. -/
theorem witness_encoded_frame :
    ∃ t : State, exec .encMeas State.reset = .next t ∧
      (let bytes := frameBytes t.out.frame t.out.frameLen.toNat
       let u := presented (fun p => { p with buf := [0x22, 0x00, 0x08, 0x2A, 0xEE], len := 4 })
       5 ≤ u.params.bufMax ∧ u.inp.buf.take bytes.length = bytes ∧ u.inp.len = bytes.length) :=
  ⟨_, rfl, by decide⟩
/-- IntervalFrameIsNotChecksummed: the frame of 1000 s put on `buf`. -/
theorem witness_interval_frame :
    ∃ t : State, exec .encCalint (presented (fun p => { p with interval := 1000 })) = .next t ∧
      (let u := presented (fun p => { p with buf := [0x01, 0x40, 0x03, 0xE8, 0], len := 4 })
       5 ≤ u.params.bufMax ∧ u.inp.len = 4 ∧ u.inp.buf.take 4 = frameBytes t.out.frame 4) :=
  ⟨_, rfl, by decide⟩
/-- DecMeasDecodesTheResponse, ReadingIsTheUnscaledInteger: V-DM1 and the state that widens its value. -/
theorem witness_decMeas :
    ∃ t : State,
      (let s := presented (fun p => { p with buf := [0x01, 0x03, 0x84, 0x88, 0], len := 4 })
       s.inp.len = 4 ∧ s.inp.buf = 0x01 :: 0x03 :: 0x84 :: 0x88 :: [0] ∧ exec .decMeas s = .next t) ∧
      t.out.outcome = .ok ∧ (presented (fun p => { p with v16 := 900 })).inp.v16 = t.out.value ∧
      State.reset.params.floatFmt = .binary32 :=
  ⟨_, ⟨rfl, rfl, rfl⟩, by decide, by decide, rfl⟩
/-- DecCtrlDecodesTheResponse. -/
theorem witness_decCtrl :
    (let s := presented (fun p => { p with buf := [0xA5, 0x5F, 0x04], len := 3 })
     s.inp.len = 3 ∧ s.inp.buf = 0xA5 :: 0x5F :: 0x04 :: []) := by decide
/-- DecWidenCompletesInAnyFormat. -/
theorem witness_other_format :
    ({ State.reset with params := { bufMax := 5, floatFmt := .other 1 } } : State).params.floatFmt =
      .other 1 := rfl
/-- PatchForcesOneBit: a byte that already agrees. -/
theorem witness_patch_agrees : (0x02 : Byte).getLsbD 1 = true := by decide
/-- PatchedRegisterReadsBack: V-EP1's byte in a response with a good checksum. -/
theorem witness_patched :
    ∃ t : State, exec .encWrctrlp (presented (fun p => { p with desired := true })) = .next t ∧
      (let u := presented (fun p => { p with buf := [0x10, 0x02, 0x12], len := 3 })
       u.inp.len = 3 ∧ u.inp.buf = 0x10 :: t.out.patched :: 0x12 :: [] ∧
         (0x12 : Byte) = 0x10 + t.out.patched) := ⟨_, rfl, by decide⟩

/-! ### The environment: one event each -/

/-- A configuration: intent "enabled, interval = 1000 s" (spec 95, P2). -/
def cfg : EnvConfig :=
  { deviceAddr := 0x55, calEnable := true, calIntervalS := 1000, pollIntervalS := 10, retryCeiling := 2,
    retryDelayMs := 5, settleDelayMs := 20 }

/-- The environment at boot with the block at reset. -/
def boot : EnvState := EnvState.boot cfg State.reset

/-- The environment with a transfer in flight. -/
def inFlight (setup : SetupProgress) (meas : MeasProgress) (task : BusTask) (r : BusRequest) : EnvState :=
  { boot with setup := setup, meas := meas, pending := .transfer { task := task, request := r } }

/-- What an event asks for, and the progress and counter it leaves. -/
def asked (r : EnvResult) : Option (List EnvAction × SetupProgress × MeasProgress × Nat) :=
  match r with
  | .ok (e, acts) => some (acts, e.setup, e.meas, e.retry)
  | .error _ => none

/-- The 4-byte read in flight. -/
def readingMeas : EnvState := inFlight .complete .awaitingResult .readMeasure (.read 0x55 4)

/-- The 3-byte read in flight. -/
def readingControl : EnvState := inFlight .readingControl .idle .readControl (.read 0x55 3)

/-- P2, steps 1 and 2. -/
theorem test_env_start :
    asked (envStep boot .start) =
      some ([.bus (.write 0x55 [0x41, 0x00, 0x3E, 0x7F])], .readingControl, .idle, 0) := by decide
/-- P1, steps 4 to 7: 900.0 is published. -/
theorem test_env_publishes :
    asked (envStep readingMeas (.busReply (.data [0x01, 0x03, 0x84, 0x88]))) =
      some ([.publish 0x44610000], .complete, .idle, 0) := by decide
/-- P4, cycle c: readiness is tested first; nothing is published or retried. -/
theorem test_env_not_ready :
    asked (envStep readingMeas (.busReply (.data [0x00, 0x03, 0x84, 0x88]))) =
      some ([.report .notReady], .complete, .idle, 0) := by decide
/-- P2, steps 4 to 7. -/
theorem test_env_patches :
    asked (envStep readingControl (.busReply (.data [0x00, 0x00, 0x00]))) =
      some ([.bus (.write 0x55 [0x31, 0x00, 0x3E, 0x02, 0x71])], .configuringCalibration, .idle, 0) := by
  decide
/-- P3, steps 4 and 5: nothing to change. -/
theorem test_env_nothing_to_change :
    asked (envStep readingControl (.busReply (.data [0x00, 0x02, 0x02]))) =
      some ([], .complete, .idle, 0) := by decide
/-- P6: setup abandoned on a corrupted control read. -/
theorem test_env_corrupted_control :
    asked (envStep readingControl (.busReply (.data [0x00, 0x02, 0x03]))) =
      some ([.report .setupChecksumMismatch], .complete, .idle, 0) := by decide
/-- P2, steps 8 and 9. -/
theorem test_env_interval :
    asked (envStep (inFlight .configuringCalibration .idle .writeControl (.write 0x55 []))
      (.busReply .written)) =
      some ([.bus (.write 0x55 [0x01, 0x40, 0x03, 0xE8])], .configuringCalibration, .idle, 0) := by decide
/-- R122: one failure of two is retried, the second is terminal. -/
theorem test_env_retry :
    asked (envStep readingMeas (.busReply (.transportError 7))) =
      some ([.after 5], .complete, .awaitingResult, 1) ∧
    asked (envStep { readingMeas with retry := 1 } (.busReply (.transportError 7))) =
      some ([.report .measTransportFailure], .complete, .idle, 2) := by decide
/-- R115: one measurement attempt has one counter; a failure of its write still counts at its read. -/
theorem test_env_attempt_counter :
    asked (envStep { inFlight .complete .commandSent .writeMeasure (.write 0x55 []) with retry := 1 }
      (.busReply .written)) = some ([.after 20], .complete, .awaitingResult, 1) := by decide
/-- N9: a short read is outside the contract. -/
theorem test_env_short_read :
    asked (envStep readingMeas (.busReply (.data [0x01, 0x03, 0x84]))) = none := by decide

/-- SetupStartsWithReadControl, BootIsConsistent and the statements over consistent states. -/
theorem witness_boot :
    boot.setup = .notStarted ∧ boot.consistent = true ∧ cfg.wellFormed = true ∧
    EnvEvent.abides boot .start = true ∧ (asked (envStep boot .start)).isSome = true := by decide
/-- SetupStartsWithReadControl, second clause. -/
theorem witness_started : readingControl.setup ≠ .notStarted := by decide
/-- IdleTickSendsTheMeasureCommand: a tick exactly one poll interval later. -/
theorem witness_idle_tick :
    cfg.pollIntervalS ≤ 10 ∧ ({ boot with setup := .complete } : EnvState).setup = .complete ∧
    ({ boot with setup := .complete } : EnvState).meas = .idle := by decide
/-- OtherTicksAreDropped: before setup is complete, and while a cycle is under way. -/
theorem witness_dropped_tick :
    cfg.pollIntervalS ≤ 10 ∧ boot.setup ≠ .complete ∧ readingMeas.meas ≠ .idle := by decide
/-- SettleDelayThenRead, both commands. -/
theorem witness_settle :
    (inFlight .complete .commandSent .writeMeasure (.write 0x55 [1])).pending =
      .transfer { task := .writeMeasure, request := .write 0x55 [1] } ∧
    (inFlight .readingControl .idle .writeReadControl (.write 0x55 [1])).pending =
      .transfer { task := .writeReadControl, request := .write 0x55 [1] } := by decide
/-- MeasurementResponseEndsTheCycle, ControlResponseDecidesSetup; consistent states. -/
theorem witness_reads :
    readingMeas.pending = .transfer { task := .readMeasure, request := .read 0x55 4 } ∧
    readingControl.pending = .transfer { task := .readControl, request := .read 0x55 3 } ∧
    readingMeas.consistent = true ∧ readingControl.consistent = true := by decide
/-- IntervalIsWrittenWhenEnabling: both intents, and the interval at its largest. -/
theorem witness_interval :
    cfg.calEnable = true ∧ ({ cfg with calEnable := false } : EnvConfig).calEnable = false ∧
    ({ cfg with calIntervalS := 65535 } : EnvConfig).calIntervalS ≤ 65535 ∧
    (inFlight .configuringCalibration .idle .writeControl (.write 0x55 [1])).pending =
      .transfer { task := .writeControl, request := .write 0x55 [1] } ∧
    (inFlight .configuringCalibration .idle .writeInterval (.write 0x55 [1])).pending =
      .transfer { task := .writeInterval, request := .write 0x55 [1] } := by decide
/-- TransportFailureIsRetriedToTheCeiling, below the ceiling and at it. -/
theorem witness_retry :
    BusTask.readMeasure ≠ .writeInterval ∧ readingMeas.retry + 1 < cfg.retryCeiling ∧
    ¬ ({ readingMeas with retry := 1 } : EnvState).retry + 1 < cfg.retryCeiling := by decide
/-- EventsKeepTheEnvironmentConsistent, SetupProgressIsWriteOnce, OnlyValidatedReadingsArePublished: an
event of a consistent state with setup complete that publishes. -/
theorem witness_publish :
    readingMeas.consistent = true ∧ readingMeas.setup = .complete ∧
    ∃ e' : EnvState, envStep readingMeas (.busReply (.data [0x01, 0x03, 0x84, 0x88])) =
      .ok (e', [.publish 0x44610000]) := ⟨by decide, by decide, _, rfl⟩
/-- RetryCounterSpansTheLogicalOperation: a failure within a measurement attempt, a reply that keeps to
it, and a control response that begins another operation. -/
theorem witness_counter :
    readingMeas.consistent = true ∧
    (∃ e' : EnvState, envStep readingMeas (.busReply (.transportError 7)) = .ok (e', [.after 5]) ∧
      e'.pending.operation = readingMeas.pending.operation) ∧
    (∃ e' : EnvState, envStep (inFlight .complete .commandSent .writeMeasure (.write 0x55 []))
        (.busReply .written) = .ok (e', [.after 20]) ∧
      e'.pending.operation.map (fun op => op.task.logicalOp) = some .measurement) ∧
    (∃ (e' : EnvState) (acts : List EnvAction),
      envStep readingControl (.busReply (.data [0x00, 0x00, 0x00])) = .ok (e', acts) ∧
      e'.pending.operation.map (fun op => op.task.logicalOp) = some .registerWrite) :=
  ⟨by decide, ⟨_, rfl, rfl⟩, ⟨_, rfl, rfl⟩, _, _, rfl, rfl⟩
/-- AtMostOneTransferInFlight: an event that starts a transfer. -/
theorem witness_transfer :
    boot.consistent = true ∧ ∃ e' : EnvState, envStep boot .start =
      .ok (e', [.bus (.write 0x55 [0x41, 0x00, 0x3E, 0x7F])]) := ⟨by decide, _, rfl⟩
/-- NoAdmittedEventIsFatal: a reply of any bytes of the length asked. -/
theorem witness_admitted :
    EnvEvent.abides readingMeas (.busReply (.data [0xFF, 0xFF, 0xFF, 0xFF])) = true ∧
    readingMeas.cfg.wellFormed = true ∧ readingMeas.consistent = true := by decide

end Sys2Proof.Tests
end

/-! PROOFS. The state family: the port level against the function level, the operands on the input
ports, the results on the output ports. Every operation answers `functionLevelOut` of its ports
(`exec_eq_answer_functionLevelOut`), so what all operations have in common is proved once, about the
function level. -/

section

namespace Sys2Proof.Machine

/-! ### Function-level values and port-level values -/

/-- R60: the loop and the integer sum reduced once are one checksum. -/
theorem csum_eq_truncatedSum (bytes : List Byte) : csum bytes = truncatedSum bytes := by
  induction bytes with
  | nil => rfl
  | cons b bs ih => rw [csum_cons, truncatedSum_cons, ih]

theorem splitField_eq (v : Half) : splitField v = [hiByte v, loByte v] := by
  have hhi : BitVec.ofNat 8 (v.toNat / 256) = hiByte v :=
    BitVec.eq_of_toNat_eq (by have := v.isLt; simp; omega)
  have hlo : BitVec.ofNat 8 v.toNat = loByte v := BitVec.eq_of_toNat_eq (by simp)
  rw [splitField, hhi, hlo]

/-- Clearing the bits of `m` before setting them makes no difference. -/
theorem and_not_or_eq_or (v m : Byte) : v &&& ~~~m ||| m = v ||| m := by
  ext i hi
  cases hv : v[i] <;> cases hm : m[i] <;> simp [hv, hm]

theorem forceBit1_eq_patch (v : Byte) (desired : Bool) : forceBit1 v desired = patch v desired := by
  cases desired with
  | false => simp [forceBit1, patch]
  | true => exact and_not_or_eq_or v 0x02

theorem readyFlag_eq_decide (status : Byte) : readyFlag status = decide (status.toNat % 2 = 1) := by
  simp [readyFlag, BitVec.getLsbD, Nat.testBit_zero]

theorem abcBit_eq_decide (reg1 : Byte) : abcBit reg1 = decide (reg1.toNat / 2 % 2 = 1) := by
  simp [abcBit, BitVec.getLsbD, Nat.testBit_succ, Nat.testBit_zero]

theorem okFlag_eq_decide (computed supplied : Byte) :
    okFlag computed supplied = decide (computed = supplied) := by
  simp [okFlag, beq_eq_decide]

theorem bigEndian_eq_ofNat (hi lo : Byte) :
    bigEndian hi lo = BitVec.ofNat 16 (hi.toNat * 256 + lo.toNat) :=
  BitVec.eq_of_toNat_eq (by have := hi.isLt; have := lo.isLt; simp; omega)

/-! ### Function-level results on the ports -/

theorem checkOut_eq_toOut (fmt : FloatFmt) (data : List Byte) (chk : Byte) :
    checkOut data chk = (Invocation.valChk data chk).eval.toOut fmt := by
  simp [checkOut, Invocation.eval, Result.toOut, csum_eq_truncatedSum, okFlag_eq_decide,
    checkOutcome]

theorem measOut_eq_toOut (fmt : FloatFmt) (status concHigh concLow chk : Byte) :
    measOut status concHigh concLow chk =
      (Invocation.decMeas status concHigh concLow chk).eval.toOut fmt := by
  simp only [measOut, Invocation.eval, Result.toOut, measResult, csum_eq_truncatedSum,
    okFlag_eq_decide, readyFlag_eq_decide, bigEndian_eq_ofNat, measOutcome, checkOutcome]
  generalize truncatedSum [status, concHigh, concLow] = sum
  rcases Nat.mod_two_eq_zero_or_one status.toNat with hready | hready
  · simp [hready, MeasResult.toOut]
  · by_cases hok : sum = chk
    · simp [hready, hok, MeasResult.toOut]
    · simp [hready, hok, MeasResult.toOut]

theorem ctrlOut_eq_toOut (fmt : FloatFmt) (reg0 reg1 chk : Byte) :
    ctrlOut reg0 reg1 chk = (Invocation.decCtrl reg0 reg1 chk).eval.toOut fmt := by
  simp only [ctrlOut, Invocation.eval, Result.toOut, ctrlResult, csum_eq_truncatedSum,
    okFlag_eq_decide, abcBit_eq_decide, checkOutcome]
  generalize truncatedSum [reg0, reg1] = sum
  by_cases hok : sum = chk
  · simp [hok, CtrlResult.toOut]
  · simp [hok, CtrlResult.toOut]

theorem checksummed_eq_frame (data : List Byte) :
    checksummed data = .frame (withChecksum data) (csum data) := by
  simp [checksummed, withChecksum, csum_eq_truncatedSum]

theorem frameOut_eq_toOut (fmt : FloatFmt) (bytes : List Byte) (sum : Byte) :
    frameOut bytes sum = (Result.frame bytes sum).toOut fmt := rfl

theorem writeControlData_eq (v : Byte) : writeControlData v = [0x31, 0x00, 0x3E, v] := by
  have hreg : splitField 0x003E = [0x00, 0x3E] := by decide
  rw [writeControlData, hreg]
  rfl

theorem writeControlSum_eq_csum (v : Byte) : writeControlSum v = csum (writeControlData v) := by
  simp [writeControlSum, writeControlData_eq, ← BitVec.add_assoc]

theorem writeControlFrame_eq_withChecksum (v : Byte) :
    writeControlFrame v = withChecksum (writeControlData v) := by
  rw [withChecksum, ← writeControlSum_eq_csum, writeControlData_eq]
  rfl

theorem commandData_eq_splitField (opcode : Byte) (reg : Half) (value : Option Byte) :
    commandData opcode reg value = [opcode] ++ splitField reg ++ value.toList := by
  rw [commandData, splitField_eq]
  rfl

/-! ### Every operation answers what the function level gives -/

@[simp] theorem decodeOp_encodeOp (i : Instr) : decodeOp (encodeOp i) = i := by
  cases i <;> rfl

@[simp] theorem encodeOp_decodeOp (op : BitVec 4) : encodeOp (decodeOp op) = op := by
  revert op
  decide

/-- R14, R18: what an operation drives is the function level's result for the operands on the ports. -/
theorem exec_eq_answer_functionLevelOut (i : Instr) (s : State) :
    exec i s = answer s (functionLevelOut s.params (placeOp s (encodeOp i)).inp) := by
  have hop : decodeOp (placeOp s (encodeOp i)).inp.op = i := by simp
  cases i <;> simp only [functionLevelOut, Invocation.ofPorts, hop]
  case reserved0 => exact exec_reserved0 s
  case reservedF => exact exec_reservedF s
  case csumStep => simp [exec_csumStep, Invocation.eval, Result.toOut, BitVec.ofNat_add]
  case csumGen =>
    by_cases hlen : s.inp.len ≤ s.params.bufMax
    · simp [exec_csumGen, hlen, Invocation.eval, Result.toOut, csum_eq_truncatedSum]
    · simp [exec_csumGen, hlen]
  case valChk =>
    by_cases hlen : s.inp.len ≤ s.params.bufMax
    · simp [exec_valChk, hlen, checkOut_eq_toOut s.params.floatFmt]
    · simp [exec_valChk, hlen]
  case valFrame =>
    by_cases hlen : 1 ≤ s.inp.len ∧ s.inp.len ≤ s.params.bufMax
    · simp [exec_valFrame, hlen, checkOut_eq_toOut s.params.floatFmt, Invocation.eval]
    · simp [exec_valFrame, hlen]
  case encBuild3 =>
    simp only [exec_encBuild3, Invocation.eval, checksummed_eq_frame, buildCommand,
      commandData_eq_splitField, Option.toList, List.append_nil, placeOp_opcode, placeOp_reg,
      frameOut_eq_toOut s.params.floatFmt]
  case encBuild4 =>
    simp only [exec_encBuild4, Invocation.eval, checksummed_eq_frame, buildCommand,
      commandData_eq_splitField, Option.toList, placeOp_opcode, placeOp_reg, placeOp_val,
      frameOut_eq_toOut s.params.floatFmt]
  case encMeas => rfl
  case encRdctrl => rfl
  case encWrctrl =>
    rw [exec_encWrctrl, writeControlFrame_eq_withChecksum, writeControlSum_eq_csum,
      Invocation.eval, checksummed_eq_frame, frameOut_eq_toOut s.params.floatFmt, placeOp_val]
  case encWrctrlp =>
    rw [exec_encWrctrlp, writeControlFrame_eq_withChecksum, writeControlSum_eq_csum,
      ← forceBit1_eq_patch]
    simp only [Invocation.eval, ← csum_eq_truncatedSum]
    rfl
  case encCalint =>
    rw [exec_encCalint, Invocation.eval, splitField_eq, frameOut_eq_toOut s.params.floatFmt,
      placeOp_interval]
    rfl
  case decMeas =>
    by_cases hlen : s.inp.len = 4
    · simp [exec_decMeas, hlen, measOut_eq_toOut s.params.floatFmt]
    · simp [exec_decMeas, hlen]
  case decCtrl =>
    by_cases hlen : s.inp.len = 3
    · simp [exec_decCtrl, hlen, ctrlOut_eq_toOut s.params.floatFmt]
    · simp [exec_decCtrl, hlen]
  case decWiden => exact exec_decWiden s

theorem step_eq_answer_functionLevelOut (s : State) :
    step s = answer s (functionLevelOut s.params s.inp) := by
  rw [step, exec_eq_answer_functionLevelOut, encodeOp_decodeOp]
  rfl

/-- What an operation can answer: the function level's outputs, driven. -/
theorem exec_eq_next_iff (i : Instr) (s t : State) :
    exec i s = .next t ↔
      t = drive s (functionLevelOut s.params (placeOp s (encodeOp i)).inp) := by
  rw [exec_eq_answer_functionLevelOut, answer_eq_next_iff]

theorem step_eq_next_iff (s t : State) :
    step s = .next t ↔ t = drive s (functionLevelOut s.params s.inp) := by
  rw [step_eq_answer_functionLevelOut, answer_eq_next_iff]

/-- R10: the values on the output ports have no part in a step. -/
@[simp] theorem step_drive (s : State) (o : OutPorts) : step (drive s o) = step s := by
  rw [step_eq_answer_functionLevelOut, step_eq_answer_functionLevelOut]
  rfl

/-! ### The invocation the input ports hold -/

@[simp] theorem putBuf_len (p : InPorts) (bytes : List Byte) :
    (putBuf p bytes).len = bytes.length := rfl

@[simp] theorem putBuf_chk (p : InPorts) (bytes : List Byte) : (putBuf p bytes).chk = p.chk := rfl

@[simp] theorem take_putBuf (p : InPorts) (bytes : List Byte) :
    (putBuf p bytes).buf.take bytes.length = bytes :=
  List.take_left

/-- Presented bytes in two parts stand on `buf` one after the other. -/
theorem putBuf_append_buf (p : InPorts) (xs ys : List Byte) :
    (putBuf p (xs ++ ys)).buf = xs ++ (ys ++ p.buf.drop (xs ++ ys).length) :=
  List.append_assoc ..

/-- R15, R17, R53: presenting an invocation and reading the ports gives it back. -/
theorem ofPorts_present (v : Invocation) (params : Params) (ports : InPorts)
    (hfits : v.bufBytes.length ≤ params.bufMax) :
    Invocation.ofPorts params (v.present ports) = some v := by
  have hop : decodeOp (v.present ports).op = v.instr := by
    cases v <;> exact decodeOp_encodeOp _
  cases v <;> simp only [Invocation.ofPorts, hop, Invocation.instr]
  case csumGen bytes =>
    have hlen : bytes.length ≤ params.bufMax := hfits
    simp [Invocation.present, hlen]
  case valChk data chk =>
    have hlen : data.length ≤ params.bufMax := hfits
    simp [Invocation.present, hlen]
  case valFrame data chk =>
    have hlen : data.length + 1 ≤ params.bufMax := by simpa [Invocation.bufBytes] using hfits
    simp [Invocation.present, hlen, putBuf_append_buf]
  all_goals rfl

/-- An invocation read from the ports is one of the operation selected. -/
theorem instr_of_ofPorts {params : Params} {p : InPorts} {v : Invocation}
    (h : Invocation.ofPorts params p = some v) : v.instr = decodeOp p.op := by
  cases hop : decodeOp p.op <;>
    simp only [Invocation.ofPorts, hop, reduceCtorEq, Option.some.injEq,
      Option.ite_none_right_eq_some] at h
  case csumGen | valChk | valFrame | decMeas | decCtrl =>
    obtain ⟨-, rfl⟩ := h
    rfl
  all_goals
    subst h
    rfl

/-- R54, R55: the outputs are the bare `ILLEGAL` or those of an invocation of the selected operation. -/
theorem functionLevelOut_cases (params : Params) (p : InPorts) :
    functionLevelOut params p = illegalOut ∨
      ∃ v : Invocation, v.instr = decodeOp p.op ∧
        functionLevelOut params p = v.eval.toOut params.floatFmt := by
  unfold functionLevelOut
  cases h : Invocation.ofPorts params p with
  | none => exact .inl rfl
  | some v => exact .inr ⟨v, instr_of_ofPorts h, rfl⟩

theorem take_eq_take_of_le {a b : List Byte} {m n : Nat} (h : a.take n = b.take n) (hmn : m ≤ n) :
    a.take m = b.take m := by
  simpa [List.take_take, hmn] using congrArg (List.take m) h

theorem getD_eq_getD_of_take_eq {a b : List Byte} {i n : Nat} (h : a.take n = b.take n)
    (hin : i < n) : a.getD i 0 = b.getD i 0 := by
  simpa [List.getElem?_take_of_lt hin] using congrArg (List.getD · i 0) h

/-- R53: the invocation read depends on the ports of the operation's format alone; of `buf` only the
bytes below `len` are read. -/
theorem ofPorts_eq_of_agree (params : Params) {a b : InPorts} (hop : decodeOp a.op = decodeOp b.op)
    (hagree : ∀ p ∈ (operandFormat (decodeOp b.op)).reads, p.agree a b = true) :
    Invocation.ofPorts params a = Invocation.ofPorts params b := by
  cases hi : decodeOp b.op <;> rw [hi] at hop hagree <;> simp only [Invocation.ofPorts, hop, hi] <;>
    simp only [operandFormat, OperandFormat.reads, InPort.agree, List.forall_mem_cons, beq_iff_eq]
      at hagree
  case csumGen =>
    obtain ⟨hbuf, hlen, -⟩ := hagree
    rw [hbuf, hlen]
  case valChk =>
    obtain ⟨hbuf, hlen, hchk, -⟩ := hagree
    rw [hbuf, hlen, hchk]
  case valFrame =>
    obtain ⟨hbuf, hlen, -⟩ := hagree
    rw [hlen] at hbuf ⊢
    by_cases h : 1 ≤ b.len ∧ b.len ≤ params.bufMax
    · rw [take_eq_take_of_le hbuf (Nat.sub_le _ 1), getD_eq_getD_of_take_eq hbuf (by omega)]
    · rw [if_neg h, if_neg h]
  case decMeas =>
    obtain ⟨hbuf, hlen, -⟩ := hagree
    rw [hlen] at hbuf ⊢
    by_cases h : b.len = 4
    · have hbyte (j : Nat) (hj : j < 4) : a.buf.getD j 0 = b.buf.getD j 0 :=
        getD_eq_getD_of_take_eq hbuf (h ▸ hj)
      rw [hbyte 0 (by decide), hbyte 1 (by decide), hbyte 2 (by decide), hbyte 3 (by decide)]
    · rw [if_neg h, if_neg h]
  case decCtrl =>
    obtain ⟨hbuf, hlen, -⟩ := hagree
    rw [hlen] at hbuf ⊢
    by_cases h : b.len = 3
    · have hbyte (j : Nat) (hj : j < 3) : a.buf.getD j 0 = b.buf.getD j 0 :=
        getD_eq_getD_of_take_eq hbuf (h ▸ hj)
      rw [hbyte 0 (by decide), hbyte 1 (by decide), hbyte 2 (by decide)]
    · rw [if_neg h, if_neg h]
  all_goals simp only [hagree]

/-- No operand format reads `op`, so selecting an operation keeps the agreement on operands. -/
@[simp] theorem agree_placeOp (p : InPort) (s s' : State) (op : BitVec 4) :
    p.agree (placeOp s op).inp (placeOp s' op).inp = p.agree s.inp s'.inp := by
  cases p <;> rfl

/-! ### The output ports a result stands on -/

/-- R16, R18: the output ports a result stands on; the others are driven 0. -/
def Result.ports : Result → List OutPort
  | .sum _ => [.sum, .outcome]
  | .check _ _ => [.ok, .sum, .outcome]
  | .frame _ _ => [.frame, .frameLen, .sum, .outcome]
  | .patchedFrame _ _ _ => [.frame, .frameLen, .sum, .patched, .outcome]
  | .meas _ _ _ _ => [.ready, .ok, .sum, .value, .outcome]
  | .ctrl _ _ _ => [.ok, .sum, .reg0, .reg1, .abc, .outcome]
  | .reading _ => [.fbits, .outcome]

theorem isZero_toOut_of_not_mem_ports (fmt : FloatFmt) (r : Result) (port : OutPort)
    (h : port ∉ r.ports) : port.isZero (r.toOut fmt) = true := by
  cases r with
  | meas c isReady matched m =>
    cases m <;> cases port <;> simp_all [Result.ports, Result.toOut, MeasResult.toOut, OutPort.isZero]
  | ctrl c matched m =>
    cases m <;> cases port <;> simp_all [Result.ports, Result.toOut, CtrlResult.toOut, OutPort.isZero]
  | _ => cases port <;> simp_all [Result.ports, Result.toOut, OutPort.isZero]

/-- R52's results column: an invocation's result stands on the ports its operation names. ENC.CALINT's
frame has no checksum, so its `sum` is 0 (R78). -/
theorem isZero_eval_of_not_mem_resultPorts (fmt : FloatFmt) (v : Invocation) (port : OutPort)
    (h : port ∉ resultPorts v.instr) : port.isZero (v.eval.toOut fmt) = true := by
  cases v
  case encCalint interval =>
    by_cases hsum : port = .sum
    · subst hsum
      rfl
    · apply isZero_toOut_of_not_mem_ports
      simpa [Invocation.eval, Result.ports, Invocation.instr, resultPorts, hsum] using h
  all_goals exact isZero_toOut_of_not_mem_ports fmt _ port h

theorem outcome_mem_resultPorts (i : Instr) : .outcome ∈ resultPorts i := by
  cases i <;> decide

theorem isZero_illegalOut {port : OutPort} (h : port ≠ .outcome) : port.isZero illegalOut = true := by
  cases port
  case outcome => exact absurd rfl h
  all_goals rfl

/-- R18: the ports an operation does not name are driven 0. -/
theorem isZero_functionLevelOut (params : Params) (p : InPorts) (port : OutPort)
    (h : port ∉ resultPorts (decodeOp p.op)) :
    port.isZero (functionLevelOut params p) = true := by
  obtain hout | ⟨v, hinstr, hout⟩ := functionLevelOut_cases params p
  · rw [hout]
    exact isZero_illegalOut fun hport => h (hport ▸ outcome_mem_resultPorts _)
  · rw [hout]
    exact isZero_eval_of_not_mem_resultPorts _ v port (hinstr ▸ h)

/-! ### Packed sequences and well-formed outputs -/

/-- R17: a port of `n` bytes holds a sequence of at most `n` bytes whole, byte `i` at bits
`[8i+7:8i]`. -/
theorem extractLsb'_packNat {bytes : List Byte} {n : Nat} (hlen : bytes.length ≤ n) (i : Nat) :
    (BitVec.ofNat (8 * n) (packNat bytes)).extractLsb' (8 * i) 8 = bytes.getD i 0 := by
  have hfits : packNat bytes < 2 ^ (8 * n) :=
    calc packNat bytes < 256 ^ bytes.length := packNat_lt bytes
      _ ≤ 256 ^ n := Nat.pow_le_pow_right (by decide) hlen
      _ = 2 ^ (8 * n) := by rw [Nat.pow_mul]
  apply BitVec.eq_of_toNat_eq
  rw [BitVec.extractLsb'_toNat, BitVec.toNat_ofNat, Nat.mod_eq_of_lt hfits,
    Nat.shiftRight_eq_div_pow, Nat.pow_mul]
  exact packNat_byte bytes i

/-- R17: the `frame` port is 0 beyond the sequence. -/
theorem packFrame_toNat_lt (bytes : List Byte) :
    (packFrame bytes).toNat < 2 ^ (8 * bytes.length) := by
  calc (packFrame bytes).toNat ≤ packNat bytes := by simp [packFrame, Nat.mod_le]
    _ < 256 ^ bytes.length := packNat_lt bytes
    _ = 2 ^ (8 * bytes.length) := by rw [Nat.pow_mul]

theorem frameClosed_of_packFrame {o : OutPorts} {bytes : List Byte}
    (hlen : bytes.length = 4 ∨ bytes.length = 5) (hframe : o.frame = packFrame bytes)
    (hframeLen : o.frameLen = BitVec.ofNat 3 bytes.length) : o.frameClosed = true := by
  have hlt := packFrame_toNat_lt bytes
  rw [← hframe] at hlt
  obtain h | h := hlen
  all_goals
    rw [h] at hlt hframeLen
    simpa [OutPorts.frameClosed, hframeLen] using hlt

/-- A frame of four or five bytes, patched byte or not, is an answer the block can give: nothing is
gated and the outcome is `OK`. -/
theorem wellFormed_patchedFrame (fmt : FloatFmt) (bytes : List Byte) (sum patched : Byte)
    (hlen : bytes.length = 4 ∨ bytes.length = 5) :
    ((Result.patchedFrame bytes sum patched).toOut fmt).wellFormed = true := by
  have hclosed : ((Result.patchedFrame bytes sum patched).toOut fmt).frameClosed = true :=
    frameClosed_of_packFrame hlen rfl rfl
  rw [OutPorts.wellFormed, hclosed]
  rfl

/-- A frame without a patched byte is one whose `patched` is 0. -/
theorem wellFormed_frame (fmt : FloatFmt) (bytes : List Byte) (sum : Byte)
    (hlen : bytes.length = 4 ∨ bytes.length = 5) :
    ((Result.frame bytes sum).toOut fmt).wellFormed = true :=
  wellFormed_patchedFrame fmt bytes sum 0 hlen

theorem wellFormed_eval (fmt : FloatFmt) (v : Invocation) :
    (v.eval.toOut fmt).wellFormed = true := by
  cases v with
  | csumStep | csumGen | decWiden => rfl
  | valChk | valFrame =>
    simp only [Invocation.eval, Result.toOut]
    split <;> rfl
  | decMeas status concHigh concLow chk =>
    simp only [Invocation.eval, Result.toOut]
    cases measResult status concHigh concLow chk <;> rfl
  | decCtrl reg0 reg1 chk =>
    simp only [Invocation.eval, Result.toOut]
    cases ctrlResult reg0 reg1 chk <;> rfl
  | encBuild3 | encMeas | encRdctrl | encCalint => exact wellFormed_frame fmt _ _ (.inl rfl)
  | encBuild4 | encWrctrl => exact wellFormed_frame fmt _ _ (.inr rfl)
  | encWrctrlp => exact wellFormed_patchedFrame fmt _ _ _ (.inr rfl)

/-- Whatever the ports hold, the outputs are well formed. -/
theorem wellFormed_functionLevelOut (params : Params) (p : InPorts) :
    (functionLevelOut params p).wellFormed = true := by
  obtain hout | ⟨v, -, hout⟩ := functionLevelOut_cases params p
  · rw [hout]
    rfl
  · rw [hout]
    exact wellFormed_eval _ v

/-- The parameters and the input ports keep their part of the invariant. -/
theorem wellFormed_drive {s : State} {o : OutPorts} (hs : s.wellFormed = true)
    (ho : o.wellFormed = true) : (drive s o).wellFormed = true := by
  simp only [State.wellFormed, Bool.and_eq_true] at hs
  obtain ⟨⟨hparams, hinp⟩, -⟩ := hs
  simp [State.wellFormed, hparams, hinp, ho]

end Sys2Proof.Machine
end

/-! ### The obligations of the state family -/

section

open Sys2Proof Sys2Proof.Machine

/-- Settles O3: the bytes below `len` are the ones presented, and every other operand has a port of its
own. -/
theorem presentedOperandsReadBack : Obligations.PresentedOperandsReadBack :=
  fun v params ports hfits => ofPorts_present v params ports (of_decide_eq_true hfits)

/-- Settles O8: `step` performs the selected operation, and every operation answers the function level's
outputs. -/
theorem stepRefinesFunctionLevel : Obligations.StepRefinesFunctionLevel :=
  step_eq_answer_functionLevelOut

/-- Settles O17: a step drives function-level outputs, which are well formed, and leaves the rest. -/
theorem stepKeepsWellFormed : Obligations.StepKeepsWellFormed := by
  constructor
  · intro s t hs hstep
    rw [(step_eq_next_iff s t).mp hstep]
    exact wellFormed_drive hs (wellFormed_functionLevelOut s.params s.inp)
  · intro s t hstep
    rw [(step_eq_next_iff s t).mp hstep]
    exact wellFormed_functionLevelOut s.params s.inp

/-- Settles O9: `answer` is the only way an operation ends. -/
theorem everyOperationCompletes : Obligations.EveryOperationCompletes := fun i s =>
  ⟨_, exec_eq_answer_functionLevelOut i s, rfl, rfl⟩

/-- Settles O10: states that differ in their outputs alone step alike, and a stepped state is one. -/
theorem stepForgetsTheOutputs : Obligations.StepForgetsTheOutputs := by
  constructor
  · intro s s' t t' hparams hinp ht ht'
    rw [step_eq_next_iff] at ht ht'
    rw [ht, ht', drive, drive, hparams, hinp]
  · intro s t ht
    rw [(step_eq_next_iff s t).mp ht, step_drive, step_eq_answer_functionLevelOut]
    rfl

/-- Settles O11: ports that agree hold the same invocation. -/
theorem onlyNamedInputsMatter : Obligations.OnlyNamedInputsMatter := by
  intro i s s' t t' hparams hagree ht ht'
  rw [exec_eq_next_iff] at ht ht'
  have hports : Invocation.ofPorts s'.params (placeOp s (encodeOp i)).inp =
      Invocation.ofPorts s'.params (placeOp s' (encodeOp i)).inp :=
    ofPorts_eq_of_agree s'.params rfl (by simpa using hagree)
  rw [ht, ht', drive_out, drive_out, functionLevelOut, functionLevelOut, hparams, hports]

/-- Settles O12: the function level's result stands on the ports the operation names. -/
theorem unnamedOutputsAreZero : Obligations.UnnamedOutputsAreZero := by
  intro i s
  refine ⟨_, exec_eq_answer_functionLevelOut i s, fun port hport => ?_⟩
  apply isZero_functionLevelOut
  rwa [placeOp_op, decodeOp_encodeOp]

/-- Settles O19: `frame` is a port of five bytes and `buf` one of `BUF_MAX`. -/
theorem bytesStandAtTheirPortBits : Obligations.BytesStandAtTheirPortBits :=
  ⟨fun _ i hlen _ => extractLsb'_packNat (n := 5) hlen i,
    fun _ _ i hlen _ => extractLsb'_packNat hlen.le i⟩

/-- Settles O5: `op` 0 selects a reserved code, whose meaning is the bare `ILLEGAL`. -/
theorem resetOutputsAreIllegal : Obligations.ResetOutputsAreIllegal := by
  refine ⟨rfl, rfl, fun s hop => ?_⟩
  have hdec : decodeOp (fetchOp s) = .reserved0 := congrArg decodeOp hop
  rw [step, hdec, exec_reserved0]
  rfl

/-- Settles O18, by evaluating the invariant's three checks on the reset ports. -/
theorem resetIsWellFormed : Obligations.ResetIsWellFormed := by
  unfold Obligations.ResetIsWellFormed
  decide

end

/-! PROOFS. The encoding family: the op codes of R52 both ways, and where an invocation is turned away.
A malformed invocation (a reserved code, R54, or a `len` its operation does not admit, R55) is one the
function level has no operands for (`ofPorts_eq_none_iff`), and no invocation with operands gives
`ILLEGAL` (`outcome_eval_ne_illegal`). -/

section

namespace Sys2Proof.Machine

/-! ### The byte of an op code -/

/-- R53: the encoding has no operand field, so every instruction is well formed. -/
@[simp] theorem instr_wellFormed (i : Instr) : i.wellFormed = true := by
  cases i <;> rfl

theorem opCodeFits_toNat (op : BitVec 4) : opCodeFits op.toNat = true :=
  decide_eq_true op.isLt

/-- R51: a byte that holds a value of the `op` port decodes to the operation that value selects. -/
theorem decode_zeroExtend_cons (op : BitVec 4) (rest : List Byte) :
    decode (op.zeroExtend 8 :: rest) = .ok (decodeOp op, rest) := by
  have hbyte : (op.zeroExtend 8).toNat = op.toNat :=
    BitVec.toNat_setWidth_of_le (by decide)
  rw [decode, hbyte, if_pos (opCodeFits_toNat op), BitVec.ofNat_toNat, BitVec.setWidth_eq]

/-- R52: an operation's byte is the value of the `op` port that selects it. -/
theorem encode_eq_zeroExtend (i : Instr) : encode i = [(encodeOp i).zeroExtend 8] := by
  cases i <;> rfl

theorem decode_encode_append (i : Instr) (rest : List Byte) :
    decode (encode i ++ rest) = .ok (i, rest) := by
  rw [encode_eq_zeroExtend, List.singleton_append, decode_zeroExtend_cons, decodeOp_encodeOp]

/-! ### Where an invocation is turned away -/

/-- R55: the operations that admit not every `len`, and the values each turns away. -/
theorem lenAdmitted_eq_false_iff (i : Instr) (bufMax len : Nat) :
    i.lenAdmitted bufMax len = false ↔
      ((i = .csumGen ∨ i = .valChk ∨ i = .valFrame) ∧ bufMax < len) ∨
        (i = .valFrame ∧ len = 0) ∨ (i = .decMeas ∧ len ≠ 4) ∨ (i = .decCtrl ∧ len ≠ 3) := by
  cases i with
  | valFrame =>
    have hrange : ¬(1 ≤ len ∧ len ≤ bufMax) ↔ bufMax < len ∨ len = 0 := by omega
    simpa [Instr.lenAdmitted] using hrange
  | _ => simp [Instr.lenAdmitted]

/-- R54, R55: the ports hold no invocation for a reserved code or a `len` not admitted, and otherwise
they hold one. -/
theorem ofPorts_eq_none_iff (params : Params) (p : InPorts) :
    Invocation.ofPorts params p = none ↔
      decodeOp p.op = .reserved0 ∨ decodeOp p.op = .reservedF ∨
        (decodeOp p.op).lenAdmitted params.bufMax p.len = false := by
  cases hop : decodeOp p.op <;> simp [Invocation.ofPorts, hop, Instr.lenAdmitted]

/-- No function-level result is `ILLEGAL` on the ports. -/
theorem outcome_toOut_ne_illegal (fmt : FloatFmt) (r : Result) :
    (r.toOut fmt).outcome ≠ .illegal := by
  cases r with
  | check c matched => cases matched <;> simp [Result.toOut]
  | meas c isReady matched m => cases m <;> simp [Result.toOut, MeasResult.toOut]
  | ctrl c matched m => cases m <;> simp [Result.toOut, CtrlResult.toOut]
  | sum | frame | patchedFrame | reading => simp [Result.toOut]

theorem functionLevelOut_of_ofPorts_eq_none {params : Params} {p : InPorts}
    (h : Invocation.ofPorts params p = none) : functionLevelOut params p = illegalOut := by
  rw [functionLevelOut, h]

/-- R55: the outcome is `ILLEGAL` when the ports hold no invocation, and in no other case. -/
theorem outcome_functionLevelOut_eq_illegal_iff (params : Params) (p : InPorts) :
    (functionLevelOut params p).outcome = .illegal ↔ Invocation.ofPorts params p = none := by
  constructor
  · intro hout
    cases h : Invocation.ofPorts params p with
    | none => rfl
    | some v =>
      rw [functionLevelOut, h] at hout
      exact absurd hout (outcome_toOut_ne_illegal _ _)
  · intro h
    rw [functionLevelOut_of_ofPorts_eq_none h, illegalOut_outcome]

/-- R54, R55: the operation `i` on the ports of `s` is no invocation. -/
theorem ofPorts_placeOp_eq_none_iff (i : Instr) (s : State) :
    Invocation.ofPorts s.params (placeOp s (encodeOp i)).inp = none ↔
      i = .reserved0 ∨ i = .reservedF ∨ i.lenAdmitted s.params.bufMax s.inp.len = false := by
  rw [ofPorts_eq_none_iff, placeOp_op, decodeOp_encodeOp, placeOp_len]

/-- R55: an operation on a `len` it does not admit answers the bare `ILLEGAL`. -/
theorem exec_of_lenAdmitted_eq_false {i : Instr} {s : State}
    (h : i.lenAdmitted s.params.bufMax s.inp.len = false) : exec i s = answer s illegalOut := by
  rw [exec_eq_answer_functionLevelOut,
    functionLevelOut_of_ofPorts_eq_none ((ofPorts_placeOp_eq_none_iff i s).mpr (.inr (.inr h)))]

end Sys2Proof.Machine
end

/-! ### The obligations of the encoding family -/

section

open Sys2Proof Sys2Proof.Machine

/-- Settles O14: `ILLEGAL` is the outcome exactly when the ports hold no invocation of the operation. -/
theorem illegalExactlyWhenMalformed : Obligations.IllegalExactlyWhenMalformed := by
  intro i s t ht
  rw [exec_eq_next_iff] at ht
  rw [ht, drive_out, outcome_functionLevelOut_eq_illegal_iff]
  constructor
  · rw [ofPorts_placeOp_eq_none_iff, lenAdmitted_eq_false_iff]
  · exact functionLevelOut_of_ofPorts_eq_none

/-- Settles O1: the decoder evaluates on each literal word and on the empty list. -/
theorem writtenOutWordsDecode : Obligations.WrittenOutWordsDecode :=
  ⟨rfl, rfl, rfl, rfl, rfl, rfl, rfl⟩

/-- Settles O2: an operation's byte holds the port value that selects it. -/
theorem opCodesRoundTrip : Obligations.OpCodesRoundTrip :=
  ⟨fun i rest _ => decode_encode_append i rest, encodeOp_decodeOp⟩

/-- Settles O4: the byte of the `op` port decodes to the operation the step selects. -/
theorem stepRunsDecodedInstruction : Obligations.StepRunsDecodedInstruction := by
  constructor
  · intro s i rest hdecode _
    rw [decode_zeroExtend_cons] at hdecode
    cases hdecode
    rfl
  · intro s
    exact ⟨_, instr_wellFormed _, decode_zeroExtend_cons (fetchOp s) []⟩

/-- Settles O6: the meaning of either reserved code is the bare `ILLEGAL`. -/
theorem reservedCodesAnswerIllegal : Obligations.ReservedCodesAnswerIllegal :=
  ⟨rfl, rfl, fun s => ⟨exec_reserved0 s, exec_reservedF s⟩⟩

/-- Settles O15: each of the four clauses is a `len` the operation does not admit. -/
theorem outOfRangeLengthAnswersIllegal : Obligations.OutOfRangeLengthAnswersIllegal := by
  refine ⟨fun i s hi hlen => ?_, fun s hlen => ?_, fun s hlen => ?_, fun s hlen => ?_⟩
  all_goals
    apply exec_of_lenAdmitted_eq_false
    rw [lenAdmitted_eq_false_iff]
  · exact .inl ⟨hi, hlen⟩
  · exact .inr (.inl ⟨rfl, hlen⟩)
  · exact .inr (.inr (.inl ⟨rfl, hlen⟩))
  · exact .inr (.inr (.inr ⟨rfl, hlen⟩))

end

/-! PROOFS. The checksum family: R60's loop as a sum over the sequence, what a change of one bit does to
it, and CSUM.STEP, CSUM.GEN and VAL.CHK on the ports. A flipped bit changes its byte
(`xor_oneBit_ne_self`), and the checksum determines any one byte from the others
(`csum_set_eq_csum_iff`). -/

section

namespace Sys2Proof.Machine

/-! ### The checksum of a sequence -/

/-- R60: the integer sum and its low 8 bits are one byte. -/
theorem truncatedSum_eq_ofNat_mod (bytes : List Byte) :
    truncatedSum bytes = BitVec.ofNat 8 ((bytes.map BitVec.toNat).sum % 256) :=
  BitVec.eq_of_toNat_eq (by simp [truncatedSum])

theorem csum_toNat (bytes : List Byte) :
    (csum bytes).toNat = (bytes.map BitVec.toNat).sum % 256 := by
  rw [csum_eq_truncatedSum, truncatedSum, BitVec.toNat_ofNat]

/-- Law L-7: the loop over the second sequence starts from the checksum of the first. -/
theorem csum_append (a b : List Byte) : csum (a ++ b) = csum a + csum b :=
  List.foldl_append.trans (foldl_csumAdd b (csum a))

theorem csum_eq_of_perm {a b : List Byte} (h : a.Perm b) : csum a = csum b := by
  rw [csum_eq_truncatedSum, csum_eq_truncatedSum, truncatedSum, truncatedSum,
    (h.map BitVec.toNat).sum_eq]

/-! ### A change of one bit -/

theorem oneBit_ne_zero {k : Nat} (hk : k < 8) : (1 : Byte) <<< k ≠ 0 := by
  decide +revert

theorem xor_oneBit_ne_self (b : Byte) {k : Nat} (hk : k < 8) : b ^^^ (1 <<< k) ≠ b := fun h =>
  oneBit_ne_zero hk ((BitVec.xor_right_inj b).mp (h.trans BitVec.xor_zero.symm))

/-- From R60: with the other bytes fixed, the checksum determines a byte. -/
theorem csum_set_eq_csum_iff {bytes : List Byte} {i : Nat} (hi : i < bytes.length) (b : Byte) :
    csum (bytes.set i b) = csum bytes ↔ b = bytes.getD i 0 := by
  induction bytes generalizing i with
  | nil => exact absurd hi (Nat.not_lt_zero i)
  | cons x xs ih =>
    cases i with
    | zero =>
      rw [List.set_cons_zero, csum_cons, csum_cons, BitVec.add_left_inj, List.getD_cons_zero]
    | succ i =>
      rw [List.set_cons_succ, csum_cons, csum_cons, BitVec.add_right_inj, List.getD_cons_succ,
        ih (Nat.lt_of_succ_lt_succ hi)]

/-! ### The validator -/

/-- R64: exactly one checksum byte validates. -/
theorem validate_eq_true_iff (data : List Byte) (chk : Byte) :
    validate data chk = true ↔ chk = csum data := by
  rw [validate, beq_iff_eq, eq_comm]

theorem validate_csum (data : List Byte) : validate data (csum data) = true :=
  (validate_eq_true_iff data _).mpr rfl

theorem validate_csum_xor_oneBit (data : List Byte) {k : Nat} (hk : k < 8) :
    validate data (csum data ^^^ (1 <<< k)) = false :=
  Bool.eq_false_iff.mpr fun h =>
    xor_oneBit_ne_self (csum data) hk ((validate_eq_true_iff data _).mp h)

/-- R86: the flag and the outcome of a checksum test are those of `validate`. -/
theorem checkOut_ok_and_outcome {data : List Byte} {chk : Byte} {valid : Bool}
    (h : validate data chk = valid) :
    (checkOut data chk).ok = valid ∧ (checkOut data chk).outcome = checkOutcome valid :=
  ⟨h, congrArg checkOutcome h⟩

/-! ### The operations on a sequence held by `buf` -/

theorem exec_csumGen_of_le {s : State} (hlen : s.inp.len ≤ s.params.bufMax) :
    exec .csumGen s =
      answer s { OutPorts.zero with sum := csum (s.inp.buf.take s.inp.len) } := by
  rw [exec_csumGen, if_pos hlen]

theorem exec_valChk_of_le {s : State} (hlen : s.inp.len ≤ s.params.bufMax) :
    exec .valChk s = answer s (checkOut (s.inp.buf.take s.inp.len) s.inp.chk) := by
  rw [exec_valChk, if_pos hlen]

end Sys2Proof.Machine
end

/-! ### The obligations of the checksum family -/

section

open Sys2Proof Sys2Proof.Machine

/-- Settles O22: within `BUF_MAX` the loop gives the integer sum reduced once; above it `len` is not
admitted. -/
theorem csumGenSumsTheFirstBytes : Obligations.CsumGenSumsTheFirstBytes := by
  intro s
  constructor
  · intro hlen
    rw [exec_csumGen_of_le hlen, csum_eq_truncatedSum, truncatedSum_eq_ofNat_mod]
    rfl
  · intro hlen
    exact exec_of_lenAdmitted_eq_false
      ((lenAdmitted_eq_false_iff _ _ _).mpr (.inl ⟨.inl rfl, hlen⟩))

/-- Settles O23: the loop and the integer sum reduced once are one checksum. -/
theorem csumIsTruncatedSum : Obligations.CsumIsTruncatedSum := csum_toNat

/-- Settles O24: the loop splits at the end of the first sequence, and the order of the summands of an
integer sum is of no account. -/
theorem csumOfConcatenationAndPermutation : Obligations.CsumOfConcatenationAndPermutation := by
  refine ⟨fun a b => ?_, fun _ _ => csum_eq_of_perm⟩
  rw [csum_append, BitVec.toNat_add]

/-- Settles O25: the flipped byte differs from the byte it replaces, which the checksum determines. -/
theorem dataBitFlipChangesTheChecksum : Obligations.DataBitFlipChangesTheChecksum :=
  fun _ _ _ hi hk h => xor_oneBit_ne_self _ hk ((csum_set_eq_csum_iff hi _).mp h)

/-- Settles O28: one checksum byte alone validates, it is the one CSUM.GEN drives, and VAL.CHK drives
what `validate` answers for the byte on `chk`. -/
theorem checksumValidatesAndCorruptionFails : Obligations.ChecksumValidatesAndCorruptionFails := by
  refine ⟨fun bytes => ⟨csum_eq_truncatedSum bytes, validate_csum bytes⟩,
    fun bytes _ hk => validate_csum_xor_oneBit bytes hk,
    fun s hlen => ⟨_, exec_csumGen_of_le hlen, ?_, ?_⟩⟩
  · rintro _ rfl
    exact ⟨_, exec_valChk_of_le hlen, checkOut_ok_and_outcome (validate_csum _)⟩
  · rintro _ k hk rfl
    exact ⟨_, exec_valChk_of_le hlen, checkOut_ok_and_outcome (validate_csum_xor_oneBit _ hk)⟩

/-- Settles O21: byte addition wraps modulo 256, and the loop adds its last byte last. -/
theorem csumStepAddsModulo256 : Obligations.CsumStepAddsModulo256 := by
  refine ⟨fun s => ?_, csum_nil, fun s bytes hacc => ?_⟩
  · have hsum : s.inp.acc + s.inp.d = BitVec.ofNat 8 ((s.inp.acc.toNat + s.inp.d.toNat) % 256) :=
      BitVec.eq_of_toNat_eq (by simp)
    rw [exec_csumStep, hsum]
    rfl
  · rw [exec_csumStep, hacc, csum_append_singleton]
    rfl

end


/-! PROOFS. The command encoder family. The `frame` port of an ENC operation holds the bytes of its frame
side by side (`frameOut_four`, `frameOut_five`) and gives them back (`frameBytes_frameOut`). All six
checksummed encoders drive `withChecksum` of their data bytes (`exec_checksummedEncoder`), and VAL.FRAME
of a frame splits it into data and checksum byte again (`exec_valFrame_of_take`). -/

section

namespace Sys2Proof.Machine

/-! ### The bytes of a field and their sum -/

theorem ofNat_div_eq_hiByte (v : Half) : BitVec.ofNat 8 (v.toNat / 256) = hiByte v := by
  rw [← hiByte_toNat, BitVec.ofNat_toNat, BitVec.setWidth_eq]

theorem ofNat_mod_eq_loByte (v : Half) : BitVec.ofNat 8 (v.toNat % 256) = loByte v := by
  rw [← loByte_toNat, BitVec.ofNat_toNat, BitVec.setWidth_eq]

/-- R70: the checksum of format C3's three data bytes. -/
theorem csum_three (a b c : Byte) :
    csum [a, b, c] = BitVec.ofNat 8 (a.toNat + b.toNat + c.toNat) := by
  simp [csum_eq_truncatedSum, truncatedSum, Nat.add_assoc]

/-- R71: the checksum of format C4's four data bytes. -/
theorem csum_four (a b c d : Byte) :
    csum [a, b, c, d] = BitVec.ofNat 8 (a.toNat + b.toNat + c.toNat + d.toNat) := by
  simp [csum_eq_truncatedSum, truncatedSum, Nat.add_assoc]

/-! ### The frame port -/

/-- One byte below a bit string is one byte in front of a packed sequence (R17). -/
theorem append_byte_toNat {n : Nat} (hi : BitVec n) (b : Byte) :
    (hi ++ b).toNat = b.toNat + 256 * hi.toNat := by
  rw [BitVec.toNat_append, ← Nat.shiftLeft_add_eq_or_of_lt b.isLt, Nat.shiftLeft_eq]
  omega

/-- R17: five bytes side by side, byte 0 in the low bits. -/
theorem packFrame_five (b0 b1 b2 b3 b4 : Byte) :
    packFrame [b0, b1, b2, b3, b4] = (b4 ++ b3 ++ b2 ++ b1 ++ b0 : BitVec 40) := by
  have hpack : packNat [b0, b1, b2, b3, b4] = (b4 ++ b3 ++ b2 ++ b1 ++ b0).toNat := by
    simp only [append_byte_toNat, packNat_cons, packNat_nil, Nat.mul_zero, Nat.add_zero]
  rw [packFrame, hpack, BitVec.ofNat_toNat, BitVec.setWidth_eq]

/-- R17: a zero byte after the sequence leaves the packed number as it is. -/
theorem packFrame_four (b0 b1 b2 b3 : Byte) :
    packFrame [b0, b1, b2, b3] = (0#8 ++ b3 ++ b2 ++ b1 ++ b0 : BitVec 40) :=
  packFrame_five b0 b1 b2 b3 0

theorem frameOut_four (b0 b1 b2 b3 sum : Byte) :
    frameOut [b0, b1, b2, b3] sum =
      { OutPorts.zero with
        frame := (0#8 ++ b3 ++ b2 ++ b1 ++ b0 : BitVec 40), frameLen := 4, sum := sum } := by
  rw [frameOut, packFrame_four]
  rfl

theorem frameOut_five (b0 b1 b2 b3 b4 sum : Byte) :
    frameOut [b0, b1, b2, b3, b4] sum =
      { OutPorts.zero with
        frame := (b4 ++ b3 ++ b2 ++ b1 ++ b0 : BitVec 40), frameLen := 5, sum := sum } := by
  rw [frameOut, packFrame_five]
  rfl

/-- R17, R25: a frame of at most five bytes is read off the port as it was put there. -/
theorem frameBytes_packFrame {bytes : List Byte} (hlen : bytes.length ≤ 5) :
    frameBytes (packFrame bytes) bytes.length = bytes := by
  apply List.ext_getElem
  · simp [frameBytes]
  · intro i _ hi
    have hbyte : frameByte (packFrame bytes) i = bytes.getD i 0 := extractLsb'_packNat (n := 5) hlen i
    simp [frameBytes, hbyte, hi]

/-- The bytes the environment sends are the frame an ENC operation built. -/
theorem frameBytes_frameOut {bytes : List Byte} (hlen : bytes.length ≤ 5) (sum : Byte) :
    frameBytes (frameOut bytes sum).frame (frameOut bytes sum).frameLen.toNat = bytes := by
  have hfits : bytes.length % 2 ^ 3 = bytes.length := Nat.mod_eq_of_lt (by omega)
  rw [frameOut, BitVec.toNat_ofNat, hfits, frameBytes_packFrame hlen]

/-! ### The calibration-bit patch (R76) -/

theorem patch_getLsbD_one (v : Byte) (desired : Bool) : (patch v desired).getLsbD 1 = desired := by
  cases desired <;> simp [patch]

theorem patch_getLsbD_of_ne (v : Byte) (desired : Bool) {k : Nat} (hk : k ≠ 1) :
    (patch v desired).getLsbD k = v.getLsbD k := by
  have hset : (0x02 : Byte).getLsbD k = false :=
    (BitVec.getLsbD_twoPow 1 k).trans (by simp [hk.symm])
  cases desired with
  | true => rw [patch, if_pos rfl, BitVec.getLsbD_or, hset, Bool.or_false]
  | false =>
    have hclear : (0xFD : Byte).getLsbD k = decide (k < 8) := by
      rw [show (0xFD : Byte) = ~~~0x02 from rfl, BitVec.getLsbD_not, hset, Bool.not_false,
        Bool.and_true]
    rw [patch, if_neg Bool.false_ne_true, BitVec.getLsbD_and, hclear]
    simpa using BitVec.lt_of_getLsbD

theorem patch_eq_self {v : Byte} {desired : Bool} (h : v.getLsbD 1 = desired) :
    patch v desired = v := by
  apply BitVec.eq_of_getLsbD_eq
  intro k _
  by_cases hk : k = 1
  · rw [hk, patch_getLsbD_one, h]
  · exact patch_getLsbD_of_ne v desired hk

/-! ### The frames of the fixed and of the write-control commands -/

theorem writeControlData_eq_commandData (v : Byte) :
    writeControlData v = commandData 0x31 0x003E (some v) := by
  rw [commandData_eq_splitField]
  rfl

/-- R72: the measure command is format C3 with opcode `0x22` and register `0x0008`. -/
theorem frameOut_measureFrame :
    frameOut measureFrame 0x2A =
      frameOut (buildCommand 0x22 0x0008 none) (csum (commandData 0x22 0x0008 none)) := by
  decide

/-- R73: the read-control command is format C3 with opcode `0x41` and register `0x003E`. -/
theorem frameOut_readControlFrame :
    frameOut readControlFrame 0x7F =
      frameOut (buildCommand 0x41 0x003E none) (csum (commandData 0x41 0x003E none)) := by
  decide

/-- R74: the checksum of the write-control command as one integer sum. -/
theorem writeControlSum_eq_ofNat (v : Byte) :
    writeControlSum v = BitVec.ofNat 8 (0x31 + 0x00 + 0x3E + v.toNat) := by
  rw [writeControlSum_eq_csum, writeControlData_eq, csum_four]
  rfl

/-- R74, R75: the write-control command is format C4 with opcode `0x31` and register `0x003E`. -/
theorem frameOut_writeControlFrame (v : Byte) :
    frameOut (writeControlFrame v) (writeControlSum v) =
      frameOut (buildCommand 0x31 0x003E (some v)) (csum (commandData 0x31 0x003E (some v))) := by
  rw [writeControlFrame_eq_withChecksum, writeControlSum_eq_csum, writeControlData_eq_commandData]
  rfl

/-! ### The checksummed encoders -/

theorem commandData_length_le (opcode : Byte) (reg : Half) (value : Option Byte) :
    (commandData opcode reg value).length ≤ 4 := by
  cases value <;> simp [commandData]

/-- R75: a checksummed encoder drives the data bytes of some command with their checksum as the last byte
and on `sum`, whatever it drives on `patched`. -/
theorem exec_checksummedEncoder {i : Instr} (s : State)
    (hi : i = .encBuild3 ∨ i = .encBuild4 ∨ i = .encMeas ∨ i = .encRdctrl ∨ i = .encWrctrl ∨
      i = .encWrctrlp) :
    ∃ (opcode : Byte) (reg : Half) (value : Option Byte) (patched : Byte),
      exec i s = answer s { frameOut (withChecksum (commandData opcode reg value))
        (csum (commandData opcode reg value)) with patched := patched } := by
  obtain rfl | rfl | rfl | rfl | rfl | rfl := hi
  · exact ⟨s.inp.opcode, s.inp.reg, none, 0, exec_encBuild3 s⟩
  · exact ⟨s.inp.opcode, s.inp.reg, some s.inp.val, 0, exec_encBuild4 s⟩
  · exact ⟨0x22, 0x0008, none, 0, by rw [exec_encMeas, frameOut_measureFrame]; rfl⟩
  · exact ⟨0x41, 0x003E, none, 0, by rw [exec_encRdctrl, frameOut_readControlFrame]; rfl⟩
  · exact ⟨0x31, 0x003E, some s.inp.val, 0, by rw [exec_encWrctrl, frameOut_writeControlFrame]; rfl⟩
  · exact ⟨0x31, 0x003E, some (patch s.inp.val s.inp.desired), patch s.inp.val s.inp.desired, by
      rw [exec_encWrctrlp, frameOut_writeControlFrame]; rfl⟩

/-! ### A frame on `buf` -/

/-- R87: VAL.FRAME of a sequence with one byte more tests that byte against the sequence. -/
theorem exec_valFrame_of_take {s : State} {data : List Byte} {chk : Byte}
    (hmax : s.inp.len ≤ s.params.bufMax) (hlen : s.inp.len = data.length + 1)
    (htake : s.inp.buf.take (data.length + 1) = data ++ [chk]) :
    exec .valFrame s = answer s (checkOut data chk) := by
  have hframe : s.inp.buf.take (data.length + 1) = (data ++ [chk]).take (data.length + 1) := by
    rw [htake, List.take_of_length_le (by simp)]
  have hdata : s.inp.buf.take data.length = data := by
    simpa using take_eq_take_of_le hframe (Nat.le_succ data.length)
  have hchk : s.inp.buf.getD data.length 0 = chk := by
    simpa using getD_eq_getD_of_take_eq hframe (Nat.lt_succ_self data.length)
  rw [exec_valFrame, if_pos ⟨by omega, hmax⟩, hlen, Nat.add_sub_cancel, hdata, hchk]

/-- R91: DEC.CTRL of a response with a matching checksum gives the register bytes out. -/
theorem exec_decCtrl_of_matching {s : State} {reg0 reg1 chk : Byte} {rest : List Byte}
    (hlen : s.inp.len = 3) (hbuf : s.inp.buf = reg0 :: reg1 :: chk :: rest)
    (hchk : chk = reg0 + reg1) :
    exec .decCtrl s = answer s { OutPorts.zero with
      sum := chk, ok := true, outcome := .ok, reg0 := reg0, reg1 := reg1, abc := abcBit reg1 } := by
  simp [exec_decCtrl, hlen, hbuf, ctrlOut, okFlag, checkOutcome, hchk]

end Sys2Proof.Machine
end

/-! ### The obligations of the command encoder family -/

section

open Sys2Proof Sys2Proof.Machine

/-- Settles O20: each fixed command is the format's frame of its opcode and register, and VAL.FRAME and
VAL.CHK test the same bytes. -/
theorem identitiesBetweenOperations : Obligations.IdentitiesBetweenOperations := by
  refine ⟨?_, ?_, ?_, ?_, ?_, ?_⟩
  · rintro s _ rfl
    exact ⟨_, by rw [exec_encMeas, frameOut_measureFrame]; rfl, exec_encBuild3 _⟩
  · rintro s _ rfl
    exact ⟨_, by rw [exec_encRdctrl, frameOut_readControlFrame]; rfl, exec_encBuild3 _⟩
  · rintro s _ rfl
    exact ⟨_, by rw [exec_encWrctrl, frameOut_writeControlFrame]; rfl, exec_encBuild4 _⟩
  · rintro s _ rfl
    exact ⟨_, exec_encWrctrlp s, exec_encWrctrl _⟩
  · rintro s _ hpos hmax rfl
    exact ⟨_, by rw [exec_valFrame, if_pos ⟨hpos, hmax⟩]; rfl,
      exec_valChk_of_le ((Nat.sub_le _ 1).trans hmax)⟩
  · intro s hlen
    exact ⟨_, _, exec_csumGen_of_le hlen, exec_valChk_of_le hlen, rfl⟩

/-- Settles O36: a checksummed encoder drives `withChecksum` of its data bytes, which VAL.FRAME splits at
the last byte. -/
theorem encodedFramesValidate : Obligations.EncodedFramesValidate := by
  intro i s t u hi ht
  obtain ⟨opcode, reg, value, patched, hexec⟩ := exec_checksummedEncoder s hi
  have hdata := commandData_length_le opcode reg value
  generalize commandData opcode reg value = data at hexec hdata
  rw [hexec, answer_eq_next_iff] at ht
  subst ht
  have hbytes : frameBytes (frameOut (withChecksum data) (csum data)).frame
      (frameOut (withChecksum data) (csum data)).frameLen.toNat = data ++ [csum data] :=
    frameBytes_frameOut (by simp [withChecksum]; omega) _
  simp only [drive_out, hbytes, List.length_append, List.length_singleton]
  refine ⟨⟨data, rfl, rfl⟩, fun hmax htake hlen => ?_⟩
  obtain ⟨hok, hout⟩ := checkOut_ok_and_outcome (validate_csum data)
  exact ⟨_, exec_valFrame_of_take (by omega) hlen htake, hok, hout, rfl⟩

/-- Settles O37: VAL.FRAME takes the low interval byte for the checksum of the three bytes before it. -/
theorem intervalFrameIsNotChecksummed : Obligations.IntervalFrameIsNotChecksummed := by
  intro s t u ht hmax hlen htake
  rw [exec_encCalint, answer_eq_next_iff] at ht
  subst ht
  have hbytes : u.inp.buf.take 4 =
      [0x01, 0x40, hiByte s.inp.interval] ++ [loByte s.inp.interval] :=
    htake.trans (frameBytes_packFrame (bytes := calIntervalFrame s.inp.interval) (Nat.le_succ 4))
  refine ⟨_, exec_valFrame_of_take (data := [0x01, 0x40, hiByte s.inp.interval]) (by omega) hlen
    hbytes, ?_⟩
  have hok : (checkOut [0x01, 0x40, hiByte s.inp.interval] (loByte s.inp.interval)).ok = true ↔
      csum [0x01, 0x40, hiByte s.inp.interval] = loByte s.inp.interval := beq_iff_eq
  rw [drive_out, hok, csum_three, ← BitVec.toNat_inj]
  simp

/-- Settles O43: the checksum matches, so DEC.CTRL gives the patched byte out, bit 1 as desired. -/
theorem patchedRegisterReadsBack : Obligations.PatchedRegisterReadsBack := by
  intro s t u x c rest ht hlen hbuf hchk
  rw [exec_encWrctrlp, answer_eq_next_iff] at ht
  subst ht
  exact ⟨_, exec_decCtrl_of_matching hlen hbuf hchk, rfl, patch_getLsbD_one _ _,
    fun _ => patch_getLsbD_of_ne _ _⟩

/-- Settles O29: format C3 on the port, with the truncated sum of its three data bytes. -/
theorem encBuild3BuildsTheFrame : Obligations.EncBuild3BuildsTheFrame := by
  intro s
  simp only [ofNat_div_eq_hiByte, ofNat_mod_eq_loByte, ← csum_three, ← frameOut_four]
  exact exec_encBuild3 s

/-- Settles O30: format C4 on the port, with the truncated sum of its four data bytes. -/
theorem encBuild4BuildsTheFrame : Obligations.EncBuild4BuildsTheFrame := by
  intro s
  simp only [ofNat_div_eq_hiByte, ofNat_mod_eq_loByte, ← csum_four, ← frameOut_five]
  exact exec_encBuild4 s

/-- Settles O31: both frames are constants. -/
theorem fixedCommandsAreByteExact : Obligations.FixedCommandsAreByteExact := fun s =>
  ⟨by rw [exec_encMeas, measureFrame, frameOut_four]; rfl,
    by rw [exec_encRdctrl, readControlFrame, frameOut_four]; rfl⟩

/-- Settles O32: the write-control frame on the port, its checksum as one integer sum. -/
theorem encWrctrlWritesTheByte : Obligations.EncWrctrlWritesTheByte := by
  intro s
  rw [exec_encWrctrl, writeControlFrame, frameOut_five, writeControlSum_eq_ofNat]
  rfl

/-- Settles O33: the write-control frame of the patched byte, which `patched` carries too. -/
theorem encWrctrlpPatchesAndWrites : Obligations.EncWrctrlpPatchesAndWrites := by
  intro s
  rw [exec_encWrctrlp, writeControlFrame, frameOut_five, writeControlSum_eq_ofNat]
  rfl

/-- Settles O34: format CI on the port, where no byte is a checksum. -/
theorem encCalintHasNoChecksum : Obligations.EncCalintHasNoChecksum := by
  intro s
  rw [exec_encCalint, calIntervalFrame, frameOut_four, ofNat_div_eq_hiByte, ofNat_mod_eq_loByte]
  rfl

/-- Settles O35: bit by bit; a byte that agrees in bit 1 is unchanged, and a patched byte is one. -/
theorem patchForcesOneBit : Obligations.PatchForcesOneBit := fun v desired =>
  ⟨patch_getLsbD_one v desired, fun _ => patch_getLsbD_of_ne v desired,
    patch_eq_self (patch_getLsbD_one v desired), patch_eq_self⟩

end

/-! PROOFS. The response decoder family. VAL.CHK and VAL.FRAME are one checksum test
(`checkOut_eq_of_ofNat_sum`); DEC.MEAS and DEC.CTRL decode the first bytes of `buf`
(`exec_decMeas_of_buf`, `exec_decCtrl_of_buf`). DEC.WIDEN's exponent is the place of the integer's
highest set bit (`topBit_eq`) and its significand the integer shifted up (`two_pow_add_fraction`), so the
pattern is exact (`widenBinary32_exact`). -/

section

namespace Sys2Proof.Machine

/-! ### The gating of the payload -/

/-- R90: the payload ports of a gated answer are 0 when the outcome is not `OK`. -/
theorem payload_eq_zero_of_payloadGated {o : OutPorts} (hgated : o.payloadGated = true)
    (hout : o.outcome ≠ .ok) : o.value = 0 ∧ o.reg0 = 0 ∧ o.reg1 = 0 ∧ o.abc = false := by
  simpa [OutPorts.payloadGated, hout, and_assoc] using hgated

theorem payloadGated_functionLevelOut (params : Params) (p : InPorts) :
    (functionLevelOut params p).payloadGated = true := by
  have hwf := wellFormed_functionLevelOut params p
  simp only [OutPorts.wellFormed, Bool.and_eq_true] at hwf
  obtain ⟨⟨hgated, -⟩, -⟩ := hwf
  exact hgated

/-! ### The checksum test -/

/-- R86, R87: a checksum test compares the integer sum, reduced once, with the supplied byte. -/
theorem checkOut_eq_of_ofNat_sum (data : List Byte) (chk : Byte) :
    checkOut data chk =
      let c : Byte := BitVec.ofNat 8 (data.map BitVec.toNat).sum
      { OutPorts.zero with
        sum := c, ok := decide (c = chk), outcome := if c = chk then .ok else .checksumMismatch } := by
  simp only [checkOut, csum_eq_truncatedSum, truncatedSum, okFlag_eq_decide, checkOutcome,
    decide_eq_true_eq]

/-! ### A response on `buf` -/

/-- R89: DEC.MEAS decodes the first four bytes of `buf`. -/
theorem exec_decMeas_of_buf {s : State} {r0 r1 r2 r3 : Byte} {rest : List Byte}
    (hlen : s.inp.len = 4) (hbuf : s.inp.buf = r0 :: r1 :: r2 :: r3 :: rest) :
    exec .decMeas s = answer s (measOut r0 r1 r2 r3) := by
  rw [exec_decMeas, if_pos hlen, hbuf]
  rfl

/-- R91: DEC.CTRL decodes the first three bytes of `buf`. -/
theorem exec_decCtrl_of_buf {s : State} {r0 r1 r2 : Byte} {rest : List Byte}
    (hlen : s.inp.len = 3) (hbuf : s.inp.buf = r0 :: r1 :: r2 :: rest) :
    exec .decCtrl s = answer s (ctrlOut r0 r1 r2) := by
  rw [exec_decCtrl, if_pos hlen, hbuf]
  rfl

/-- R89, R90: an `OK` measurement response gives its two concentration bytes, high byte first. -/
theorem measOut_value_of_ok {r0 r1 r2 r3 : Byte} (h : (measOut r0 r1 r2 r3).outcome = .ok) :
    (measOut r0 r1 r2 r3).value = bigEndian r1 r2 :=
  if_pos h

/-! ### The fields of a binary32 pattern -/

section

variable {b : FloatBits} {e f : Nat} (hbits : b.toNat = e * 2 ^ 23 + f) (hf : f < 2 ^ 23)
include hbits hf

theorem fractionField_of_toNat : fractionField b = f := by
  rw [fractionField]
  omega

theorem exponentField_of_toNat (he : e < 2 ^ 8) : exponentField b = e := by
  rw [exponentField]
  omega

/-- An exponent below 256 leaves bit 31 clear. -/
theorem sign_of_toNat (he : e < 2 ^ 8) : b.getLsbD 31 = false :=
  Nat.testBit_lt_two_pow (by omega)

/-- Assumption 5: what a normal pattern with the sign bit clear stands for. -/
theorem binary32Value_of_toNat (hpos : 0 < e) (he : e < 255) :
    binary32Value b = some (((2 ^ 23 + f : Nat) * 2 ^ e : Rat) / 2 ^ 150) := by
  rw [binary32Value, binary32Magnitude, exponentField_of_toNat hbits hf (by omega),
    fractionField_of_toNat hbits hf, sign_of_toNat hbits hf (by omega), if_neg he.ne,
    if_neg hpos.ne']
  simp

end

/-! ### The pattern of an integer -/

/-- R93: the fraction bits are what stands below bit `e`, shifted up to end at bit 22. -/
theorem fraction_eq (v : Half) (e : Nat) : fraction v e = (v.toNat - 2 ^ e) * 2 ^ (23 - e) := by
  rw [fraction, Nat.shiftLeft_eq, Nat.shiftLeft_eq, Nat.one_mul]

section

variable {v : Half} {e : Nat} (hge : 2 ^ e ≤ v.toNat) (hlt : v.toNat < 2 ^ (e + 1))
include hge

theorem two_pow_add_fraction (he : e ≤ 23) : 2 ^ 23 + fraction v e = v.toNat * 2 ^ (23 - e) := by
  have hpow : 2 ^ e * 2 ^ (23 - e) = 2 ^ 23 := by rw [← Nat.pow_add, Nat.add_sub_cancel' he]
  rw [fraction_eq, ← hpow, ← Nat.add_mul, Nat.add_sub_cancel' hge]

include hlt

theorem fraction_lt (he : e ≤ 23) : fraction v e < 2 ^ 23 := by
  have hsig : v.toNat * 2 ^ (23 - e) < 2 ^ (e + 1) * 2 ^ (23 - e) :=
    Nat.mul_lt_mul_of_pos_right hlt (Nat.two_pow_pos _)
  rw [← two_pow_add_fraction hge he, ← Nat.pow_add, show e + 1 + (23 - e) = 24 by omega] at hsig
  omega

/-- R93: the search from bit `k` down stops at the highest set bit. -/
theorem topBit_eq {k : Nat} (hek : e ≤ k) : topBit v k = e := by
  induction k with
  | zero => exact (Nat.le_zero.mp hek).symm
  | succ k ih =>
    rw [topBit]
    obtain hek | rfl := Nat.le_succ_iff.mp hek
    · have hclear : v.getLsbD (k + 1) = false :=
        Nat.testBit_lt_two_pow (hlt.trans_le (Nat.pow_le_pow_right (by decide) (by omega)))
      rw [hclear, if_neg Bool.false_ne_true, ih hek]
    · have hset : v.getLsbD (k + 1) = true :=
        Nat.testBit_of_two_pow_le_and_two_pow_add_one_gt hge hlt
      rw [if_pos hset]

/-- R93: the exponent and the fraction of a nonzero integer stand side by side in its pattern. -/
theorem widenBinary32_toNat (he : e ≤ 15) :
    (widenBinary32 v).toNat = (127 + e) * 2 ^ 23 + fraction v e := by
  have hne : v ≠ 0 := by
    rintro rfl
    exact absurd hge (Nat.not_le.mpr (Nat.two_pow_pos e))
  have hf : fraction v e < 2 ^ 23 := fraction_lt hge hlt (by omega)
  rw [widenBinary32, if_neg hne, topBit_eq hge hlt he, ← Nat.shiftLeft_add_eq_or_of_lt hf,
    Nat.shiftLeft_eq, BitVec.toNat_ofNat, Nat.mod_eq_of_lt (by omega)]

/-- R93: the significand times the power of two is the integer. -/
theorem widenBinary32_exact_of_topBit (he : e ≤ 15) :
    binary32Value (widenBinary32 v) = some (v.toNat : Rat) ∧
      (widenBinary32 v).getLsbD 31 = false := by
  have hbits := widenBinary32_toNat hge hlt he
  have hf := fraction_lt hge hlt (by omega)
  have hpow : (2 ^ (23 - e) * 2 ^ (127 + e) : Rat) = 2 ^ 150 := by
    rw [← pow_add, show 23 - e + (127 + e) = 150 by omega]
  refine ⟨?_, sign_of_toNat hbits hf (by omega)⟩
  rw [binary32Value_of_toNat hbits hf (by omega) (by omega), two_pow_add_fraction hge (by omega),
    Nat.cast_mul, Nat.cast_pow, Nat.cast_ofNat, mul_assoc, hpow,
    mul_div_cancel_right₀ _ (by positivity)]

end

/-- Spec 42 section 5: the pattern stands for the integer exactly, and its sign bit is clear. -/
theorem widenBinary32_exact (v : Half) :
    binary32Value (widenBinary32 v) = some (v.toNat : Rat) ∧
      (widenBinary32 v).getLsbD 31 = false := by
  by_cases hv : v.toNat = 0
  · obtain rfl : v = 0 := BitVec.eq_of_toNat_eq hv
    exact ⟨by simp [widenBinary32, binary32Value, binary32Magnitude, exponentField, fractionField],
      rfl⟩
  · have hlog : v.toNat.log2 < 16 := (Nat.log2_lt hv).mpr v.isLt
    exact widenBinary32_exact_of_topBit (Nat.log2_self_le hv) Nat.lt_log2_self (by omega)

end Sys2Proof.Machine
end

/-! ### The obligations of the response decoder family -/

section

open Sys2Proof Sys2Proof.Machine

/-- Settles O16: the outputs of an operation are the function level's, which are gated. -/
theorem payloadIsGated : Obligations.PayloadIsGated := by
  intro i s t ht hout
  rw [exec_eq_next_iff] at ht
  subst ht
  exact payload_eq_zero_of_payloadGated (payloadGated_functionLevelOut _ _) hout

/-- Settles O26: a checksum test within `BUF_MAX`; above it `len` is out of range. -/
theorem valChkComparesTheSum : Obligations.ValChkComparesTheSum := by
  obtain ⟨hillegal, -⟩ := outOfRangeLengthAnswersIllegal
  refine fun s => ⟨fun hlen => ?_, hillegal .valChk s (.inr (.inl rfl))⟩
  rw [exec_valChk_of_le hlen, checkOut_eq_of_ofNat_sum]
  rfl

/-- Settles O27: the frame on `buf` splits at its last byte; a `len` of 0 or above `BUF_MAX` is out of
range. -/
theorem valFrameSplitsOffTheLastByte : Obligations.ValFrameSplitsOffTheLastByte := by
  obtain ⟨hillegal, hempty, -⟩ := outOfRangeLengthAnswersIllegal
  refine ⟨fun s data rest chk hbuf hlen hmax => ?_, fun s hlen => ?_⟩
  · have htake : s.inp.buf.take (data.length + 1) = data ++ [chk] := by
      rw [hbuf, List.take_length_add_append, List.take_succ_cons, List.take_zero]
    rw [exec_valFrame_of_take hmax hlen htake, checkOut_eq_of_ofNat_sum]
    rfl
  · exact hlen.elim (hempty s) (hillegal .valFrame s (.inr (.inr rfl)))

/-- Settles O38: readiness decides first, then the checksum; a `len` other than 4 is out of range. -/
theorem decMeasDecodesTheResponse : Obligations.DecMeasDecodesTheResponse := by
  obtain ⟨-, -, hillegal, -⟩ := outOfRangeLengthAnswersIllegal
  refine ⟨fun s r0 r1 r2 r3 rest hlen hbuf => ?_, hillegal⟩
  have hsum : truncatedSum [r0, r1, r2] = BitVec.ofNat 8 (r0.toNat + r1.toNat + r2.toNat) :=
    (csum_eq_truncatedSum _).symm.trans (csum_three r0 r1 r2)
  rw [exec_decMeas_of_buf hlen hbuf, measOut_eq_toOut s.params.floatFmt]
  simp only [Invocation.eval, Result.toOut, measResult, hsum, ne_eq, ite_not]
  split
  · rfl
  · split <;> rfl

/-- Settles O39: the checksum alone decides; a `len` other than 3 is out of range. -/
theorem decCtrlDecodesTheResponse : Obligations.DecCtrlDecodesTheResponse := by
  obtain ⟨-, -, -, hillegal⟩ := outOfRangeLengthAnswersIllegal
  refine ⟨fun s r0 r1 r2 rest hlen hbuf => ?_, hillegal⟩
  have hsum : truncatedSum [r0, r1] = BitVec.ofNat 8 (r0.toNat + r1.toNat) := rfl
  rw [exec_decCtrl_of_buf hlen hbuf, ctrlOut_eq_toOut s.params.floatFmt]
  simp only [Invocation.eval, Result.toOut, ctrlResult, hsum]
  split
  · next hok =>
    rw [decide_eq_true hok]
    rfl
  · next hok =>
    rw [decide_eq_false hok]
    rfl

/-- Settles O40: the pattern DEC.WIDEN drives is R93's, which in binary32 is exact. -/
theorem decWidenIsExact : Obligations.DecWidenIsExact := by
  intro s
  refine ⟨_, exec_decWiden s, fun hfmt => ?_⟩
  rw [hfmt]
  exact widenBinary32_exact s.inp.v16

/-- Settles O42: an `OK` response gives its big-endian value, which DEC.WIDEN keeps exactly. -/
theorem readingIsTheUnscaledInteger : Obligations.ReadingIsTheUnscaledInteger := by
  intro s t u r0 r1 r2 r3 rest hlen hbuf ht hout hv hfmt
  rw [exec_decMeas_of_buf hlen hbuf, answer_eq_next_iff] at ht
  subst ht
  have hv16 : u.inp.v16.toNat = r1.toNat * 256 + r2.toNat := by
    rw [hv, drive_out, measOut_value_of_ok hout, bigEndian_toNat]
  refine ⟨_, exec_decWiden u, ?_⟩
  rw [hfmt, drive_out, ← hv16]
  obtain ⟨hvalue, -⟩ := widenBinary32_exact u.inp.v16
  exact hvalue

/-- Settles O41: the pattern of another format is that format's free value. -/
theorem decWidenCompletesInAnyFormat : Obligations.DecWidenCompletesInAnyFormat := by
  intro s tag hfmt
  rw [exec_decWiden, hfmt]
  rfl

end

/-! PROOFS. The exceptions family: the outcome table, and the environment that acts on the outcomes. An
invocation drives the function level's result (`invoke_eq_ok`), so each event of the environment has its
equation. These equations say together what an accepted event can do (`EnvMove`, `envMove_of_envStep`),
and every invariant of the environment is a case analysis over the moves. -/

section

namespace Sys2Proof.Machine

/-! ### One invocation of the block -/

/-- The block after an invocation: its operands on the ports, and the function level's result driven. -/
def invoked (v : Invocation) (b : State) : State :=
  drive (presentInputs b (v.present b.inp)) (v.eval.toOut b.params.floatFmt)

@[simp] theorem invoked_params (v : Invocation) (b : State) : (invoked v b).params = b.params := rfl

@[simp] theorem invoked_out (v : Invocation) (b : State) :
    (invoked v b).out = v.eval.toOut b.params.floatFmt := rfl

/-- R14: an invocation whose operands stand on the ports drives their result. -/
theorem invoke_eq_ok {v : Invocation} {b : State}
    (hv : Invocation.ofPorts b.params (v.present b.inp) = some v) :
    invoke v b = .ok (invoked v b) := by
  rw [invoke_eq_ok_iff, step_eq_next_iff, functionLevelOut, presentInputs_params, presentInputs_inp,
    hv]
  rfl

/-- R34, R115: a write of the given bytes in flight, with a fresh counter, after the block's invocation. -/
def writeBegun (e : EnvState) (task : BusTask) (v : Invocation) (bytes : List Byte) :
    EnvState × List EnvAction :=
  ({ e with
      retry := 0, block := invoked v e.block
      pending := .transfer { task := task, request := .write e.cfg.deviceAddr bytes } },
    [.bus (.write e.cfg.deviceAddr bytes)])

/-- R34: the bytes sent are the frame the block built, patched byte or not. -/
theorem startWrite_eq_ok {e : EnvState} {v : Invocation} {bytes : List Byte} {sum patchedByte : Byte}
    (task : BusTask) (hv : Invocation.ofPorts e.block.params (v.present e.block.inp) = some v)
    (hout : v.eval.toOut e.block.params.floatFmt = { frameOut bytes sum with patched := patchedByte })
    (hlen : bytes.length ≤ 5) :
    startWrite e task v = .ok (writeBegun e task v bytes) := by
  have hframe : frameWrite { e with block := invoked v e.block, retry := 0 } task =
      { task := task, request := .write e.cfg.deviceAddr bytes } := by
    rw [frameWrite, invoked_out, hout, frameBytes_frameOut hlen]
  rw [startWrite_eq_ok_iff]
  exact ⟨_, invoke_eq_ok hv, by rw [hframe]; rfl⟩

theorem startWrite_encRdctrl (e : EnvState) (task : BusTask) :
    startWrite e task .encRdctrl = .ok (writeBegun e task .encRdctrl readControlFrame) :=
  startWrite_eq_ok (sum := 0x7F) (patchedByte := 0) task rfl rfl (by decide)

theorem startWrite_encMeas (e : EnvState) (task : BusTask) :
    startWrite e task .encMeas = .ok (writeBegun e task .encMeas measureFrame) :=
  startWrite_eq_ok (sum := 0x2A) (patchedByte := 0) task rfl rfl (by decide)

theorem startWrite_encCalint (e : EnvState) (task : BusTask) (interval : Half) :
    startWrite e task (.encCalint interval) =
      .ok (writeBegun e task (.encCalint interval) (calIntervalFrame interval)) :=
  startWrite_eq_ok (sum := 0) (patchedByte := 0) task rfl
    (by rw [Invocation.eval, splitField_eq]; rfl) (by simp [calIntervalFrame])

theorem startWrite_encWrctrlp (e : EnvState) (task : BusTask) (val : Byte) (desired : Bool) :
    startWrite e task (.encWrctrlp val desired) =
      .ok (writeBegun e task (.encWrctrlp val desired) (writeControlFrame (patch val desired))) := by
  refine startWrite_eq_ok (sum := writeControlSum (patch val desired))
    (patchedByte := patch val desired) task rfl ?_ (by simp [writeControlFrame])
  rw [writeControlFrame_eq_withChecksum, writeControlSum_eq_csum, ← forceBit1_eq_patch]
  simp only [Invocation.eval, ← csum_eq_truncatedSum]
  rfl

/-! ### The reply to the transfer in flight -/

theorem envStep_busReply {e : EnvState} {op : BusOp} (h : e.pending = .transfer op) (r : BusReply) :
    envStep e (.busReply r) = onReply e op r := by
  rw [envStep, h]

theorem envStep_written {e : EnvState} {task : BusTask} {addr : BitVec 7} {bytes : List Byte}
    (h : e.pending = .transfer { task := task, request := .write addr bytes }) :
    envStep e (.busReply .written) = afterWrite e task :=
  envStep_busReply h _

theorem envStep_data {e : EnvState} {task : BusTask} {addr : BitVec 7} {n : Nat} {bytes : List Byte}
    (h : e.pending = .transfer { task := task, request := .read addr n })
    (hlen : bytes.length = n) :
    envStep e (.busReply (.data bytes)) = afterRead e task bytes :=
  (envStep_busReply h _).trans (if_pos hlen)

theorem envStep_transportError {e : EnvState} {op : BusOp} (h : e.pending = .transfer op)
    (code : Nat) : envStep e (.busReply (.transportError code)) = .ok (transportFailed e op) :=
  envStep_busReply h _

/-- R113: the pending callback issues its transfer when it fires no earlier than its delay. -/
theorem envStep_timerFired {e : EnvState} {delayMs : Nat} {op : BusOp}
    (h : e.pending = .timer delayMs op) (elapsedMs : Nat) :
    envStep e (.timerFired elapsedMs) =
      if delayMs ≤ elapsedMs then .ok ({ e with pending := .transfer op }, [.bus op.request])
      else .error .timerTooEarly := by
  rw [envStep, onTimer, h]
  rfl

/-! ### What the responses decode to -/

theorem ofNat_eq_iff_mod_eq (n : Nat) (chk : Byte) : BitVec.ofNat 8 n = chk ↔ n % 256 = chk.toNat := by
  rw [← BitVec.toNat_inj, BitVec.toNat_ofNat]

/-- R43, R89: the measurement response, its checksum as an integer sum. -/
theorem measResult_eq (r0 r1 r2 r3 : Byte) :
    measResult r0 r1 r2 r3 =
      if r0.toNat % 2 = 0 then .notReady
      else if (r0.toNat + r1.toNat + r2.toNat) % 256 ≠ r3.toNat then .checksumMismatch
      else .ok (BitVec.ofNat 16 (r1.toNat * 256 + r2.toNat)) := by
  rw [measResult, ← csum_eq_truncatedSum, csum_three]
  simp only [ofNat_eq_iff_mod_eq, ne_eq, ite_not]

/-- R44, R91: the control-register response, its checksum as an integer sum. -/
theorem ctrlResult_eq (r0 r1 r2 : Byte) :
    ctrlResult r0 r1 r2 =
      if (r0.toNat + r1.toNat) % 256 ≠ r2.toNat then .checksumMismatch
      else .ok r0 r1 (decide (r1.toNat / 2 % 2 = 1)) := by
  have hsum : truncatedSum [r0, r1] = BitVec.ofNat 8 (r0.toNat + r1.toNat) := rfl
  simp only [ctrlResult, hsum, ofNat_eq_iff_mod_eq, ne_eq, ite_not]

/-- R118: what is asked for when a measurement response has been decoded. -/
def MeasResult.actions (fmt : FloatFmt) : MeasResult → List EnvAction
  | .ok value => [.publish (widenBits fmt value)]
  | .notReady => [.report .notReady]
  | .checksumMismatch => [.report .measChecksumMismatch]

/-- R118: a measurement response ends the cycle, whatever it decodes to. -/
theorem onMeasurement_eq_ok (e : EnvState) (r0 r1 r2 r3 : Byte) :
    ∃ b : State, b.params = e.block.params ∧
      onMeasurement e r0 r1 r2 r3 = .ok (finishMeas { e with block := b }
        ((measResult r0 r1 r2 r3).actions e.block.params.floatFmt)) := by
  rw [onMeasurement, invoke_eq_ok rfl]
  simp only [Except.bind, invoked_out, Invocation.eval, Result.toOut]
  cases measResult r0 r1 r2 r3 with
  | ok value =>
    exact ⟨invoked (.decWiden value) (invoked (.decMeas r0 r1 r2 r3) e.block), rfl,
      congrArg (Except.map _) (invoke_eq_ok (v := .decWiden value) rfl)⟩
  | notReady | checksumMismatch => exact ⟨invoked (.decMeas r0 r1 r2 r3) e.block, rfl, rfl⟩

/-- R120: a corrupted control-register response ends setup without a write. -/
theorem onControl_of_checksumMismatch {e : EnvState} {r0 r1 r2 : Byte}
    (h : ctrlResult r0 r1 r2 = .checksumMismatch) :
    onControl e r0 r1 r2 = .ok (finishSetup { e with block := invoked (.decCtrl r0 r1 r2) e.block }
      [.report .setupChecksumMismatch]) := by
  rw [onControl, invoke_eq_ok rfl]
  simp only [Except.bind, invoked_out, Invocation.eval, Result.toOut, h]
  rfl

/-- R121: a valid control-register response ends setup when it agrees with the intent, and leads to the
write of the patched byte when it does not. -/
theorem onControl_of_ok {e : EnvState} {r0 r1 r2 : Byte} {abc : Bool}
    (h : ctrlResult r0 r1 r2 = .ok r0 r1 abc) :
    onControl e r0 r1 r2 =
      if abc = e.cfg.calEnable then
        .ok (finishSetup { e with block := invoked (.decCtrl r0 r1 r2) e.block } [])
      else .ok (writeBegun
        { e with block := invoked (.decCtrl r0 r1 r2) e.block, setup := .configuringCalibration }
        .writeControl (.encWrctrlp r1 e.cfg.calEnable)
        (writeControlFrame (patch r1 e.cfg.calEnable))) := by
  rw [onControl, invoke_eq_ok rfl, ← startWrite_encWrctrlp]
  simp only [Except.bind, invoked_out, Invocation.eval, Result.toOut, h]
  rfl

end Sys2Proof.Machine
end

/-! ### The obligations of the exceptions family: one event each -/

section

open Sys2Proof Sys2Proof.Machine

/-- Settles O44: the guard of the start event decides, and the write is ENC.RDCTRL's frame. -/
theorem setupStartsWithReadControl : Obligations.SetupStartsWithReadControl := fun e =>
  ⟨fun hsetup => ⟨invoked .encRdctrl e.block, rfl, (if_pos hsetup).trans (startWrite_encRdctrl _ _)⟩,
    fun hsetup => if_neg hsetup⟩

/-- Settles O45: neither guard of the tick stops it, and the write is ENC.MEAS's frame. -/
theorem idleTickSendsTheMeasureCommand : Obligations.IdleTickSendsTheMeasureCommand := by
  intro e elapsedS hpoll hsetup hmeas
  refine ⟨invoked .encMeas e.block, rfl, ?_⟩
  rw [envStep, onPollTick, if_neg hpoll.not_gt, if_pos ⟨hsetup, hmeas⟩]
  exact startWrite_encMeas _ _

/-- Settles O46: the tick is not too early, and the guard of a measurement fails. -/
theorem otherTicksAreDropped : Obligations.OtherTicksAreDropped := by
  intro e elapsedS hpoll hbusy
  rw [envStep, onPollTick, if_neg hpoll.not_gt, if_neg (not_and_or.mpr hbusy)]

/-- Settles O47: the write's reply schedules the read, which the timer issues from its delay on. -/
theorem settleDelayThenRead : Obligations.SettleDelayThenRead := by
  intro e task readTask n addr bytes htask hpending
  refine ⟨?_, envStep_timerFired rfl⟩
  rw [envStep_written hpending]
  obtain ⟨rfl, rfl, rfl⟩ | ⟨rfl, rfl, rfl⟩ := htask
  · rfl
  · rfl

/-- Settles O51: every transfer but the interval write belongs to an operation that is retried. -/
theorem transportFailureIsRetriedToTheCeiling : Obligations.TransportFailureIsRetriedToTheCeiling := by
  intro e op code hpending htask
  rw [envStep_transportError hpending]
  obtain ⟨task, request⟩ := op
  cases task with
  | writeInterval => exact absurd rfl htask
  | writeMeasure | readMeasure | writeReadControl | readControl | writeControl => rfl

/-- Settles O50: an interval of at most 65535 is its own 16-bit operand, so its bytes are those of
ENC.CALINT's frame. -/
theorem intervalIsWrittenWhenEnabling : Obligations.IntervalIsWrittenWhenEnabling := by
  refine ⟨fun e addr bytes hpending => ?_, fun e addr bytes code hpending =>
    ⟨envStep_written hpending, envStep_transportError hpending code⟩⟩
  rw [envStep_written hpending, afterWrite]
  refine ⟨fun hdisable => by rw [hdisable]; rfl, fun henable hinterval => ?_⟩
  have hfits : (BitVec.ofNat 16 e.cfg.calIntervalS).toNat = e.cfg.calIntervalS :=
    Nat.mod_eq_of_lt (by omega)
  have hwrite := startWrite_encCalint e .writeInterval (BitVec.ofNat 16 e.cfg.calIntervalS)
  rw [calIntervalFrame, ← ofNat_div_eq_hiByte, ← ofNat_mod_eq_loByte, hfits] at hwrite
  rw [if_pos henable, startInterval, if_pos hinterval]
  exact ⟨invoked _ e.block, rfl, hwrite⟩

/-- Settles O48: the three results of DEC.MEAS are told apart by readiness and then by the integer sum. -/
theorem measurementResponseEndsTheCycle : Obligations.MeasurementResponseEndsTheCycle := by
  intro e addr r0 r1 r2 r3 hpending
  obtain ⟨b, hparams, hdecode⟩ := onMeasurement_eq_ok e r0 r1 r2 r3
  refine ⟨b, hparams, (envStep_data hpending rfl).trans (hdecode.trans ?_)⟩
  rw [measResult_eq, finishMeas_eq]
  split
  · rfl
  · split <;> rfl

/-- Settles O49: the results of DEC.CTRL are told apart by the integer sum, and ENC.WRCTRLP patches the
byte it gave out. -/
theorem controlResponseDecidesSetup : Obligations.ControlResponseDecidesSetup := by
  intro e addr r0 r1 r2 hpending
  have hresult := ctrlResult_eq r0 r1 r2
  rw [envStep_data hpending rfl, afterRead]
  by_cases hsum : (r0.toNat + r1.toNat) % 256 ≠ r2.toNat
  · rw [if_pos hsum] at hresult
    simp only [onControl_of_checksumMismatch hresult, if_pos hsum]
    exact ⟨invoked (.decCtrl r0 r1 r2) e.block, rfl, rfl⟩
  · rw [if_neg hsum] at hresult
    simp only [onControl_of_ok hresult, if_neg hsum]
    by_cases hagree : decide (r1.toNat / 2 % 2 = 1) = e.cfg.calEnable
    · simp only [if_pos hagree]
      exact ⟨invoked (.decCtrl r0 r1 r2) e.block, rfl, rfl⟩
    · simp only [if_neg hagree]
      exact ⟨invoked _ (invoked (.decCtrl r0 r1 r2) e.block), rfl, rfl⟩
end

section

namespace Sys2Proof.Machine

/-! ### What an accepted event can do -/

/-- The events that begin a logical operation with a command write (R116, R119 to R121), with the write's
purpose and the progress values from then on. -/
inductive Begins (e : EnvState) : EnvEvent → BusTask → SetupProgress → MeasProgress → Prop where
  | registerRead (hsetup : e.setup = .notStarted) :
      Begins e .start .writeReadControl .readingControl e.meas
  | measurement {elapsedS : Nat} (hsetup : e.setup = .complete) (hmeas : e.meas = .idle) :
      Begins e (.pollTick elapsedS) .writeMeasure e.setup .commandSent
  | registerWrite {addr : BitVec 7} {n : Nat} {response : List Byte}
      (hpending : e.pending = .transfer { task := .readControl, request := .read addr n }) :
      Begins e (.busReply (.data response)) .writeControl .configuringCalibration e.meas
  | intervalWrite {addr : BitVec 7} {bytes : List Byte}
      (hpending : e.pending = .transfer { task := .writeControl, request := .write addr bytes }) :
      Begins e (.busReply .written) .writeInterval e.setup e.meas

/-- The next state and the actions of an accepted event. -/
inductive EnvMove (e : EnvState) : EnvEvent → EnvState → List EnvAction → Prop where
  /-- R115, R116, R119 to R121: a command write begins a logical operation. -/
  | begins {ev : EnvEvent} {task : BusTask} {setup : SetupProgress} {meas : MeasProgress}
      {block : State} {addr : BitVec 7} {bytes : List Byte} (hbegins : Begins e ev task setup meas) :
      EnvMove e ev
        { e with
          setup := setup, meas := meas, retry := 0, block := block
          pending := .transfer { task := task, request := .write addr bytes } }
        [.bus (.write addr bytes)]
  /-- R117: the measure command has been written. -/
  | awaitsResult {addr : BitVec 7} {bytes : List Byte}
      (hpending : e.pending = .transfer { task := .writeMeasure, request := .write addr bytes }) :
      EnvMove e (.busReply .written)
        { e with
          meas := .awaitingResult
          pending := .timer e.cfg.settleDelayMs
            { task := .readMeasure, request := .read e.cfg.deviceAddr 4 } }
        [.after e.cfg.settleDelayMs]
  /-- R120: the read-control command has been written. -/
  | awaitsRegister {addr : BitVec 7} {bytes : List Byte}
      (hpending : e.pending = .transfer { task := .writeReadControl, request := .write addr bytes }) :
      EnvMove e (.busReply .written)
        { e with
          pending := .timer e.cfg.settleDelayMs
            { task := .readControl, request := .read e.cfg.deviceAddr 3 } }
        [.after e.cfg.settleDelayMs]
  /-- R122: below the ceiling the failed transfer is scheduled again. -/
  | retries {op : BusOp} {code : Nat} (hpending : e.pending = .transfer op)
      (hceiling : e.retry + 1 < e.cfg.retryCeiling) :
      EnvMove e (.busReply (.transportError code))
        { e with retry := e.retry + 1, pending := .timer e.cfg.retryDelayMs op }
        [.after e.cfg.retryDelayMs]
  /-- R113: a scheduled transfer is issued. -/
  | fires {delayMs elapsedMs : Nat} {op : BusOp} (hpending : e.pending = .timer delayMs op) :
      EnvMove e (.timerFired elapsedMs) { e with pending := .transfer op } [.bus op.request]
  /-- R116: a tick is dropped. -/
  | drops {elapsedS : Nat} : EnvMove e (.pollTick elapsedS) e []
  /-- R118: a ready response with a matching checksum ends the cycle. -/
  | publishes {addr : BitVec 7} {block : State} {r0 r1 r2 r3 : Byte}
      (hpending : e.pending = .transfer { task := .readMeasure, request := .read addr 4 })
      (hready : r0.toNat % 2 = 1)
      (hsum : (r0.toNat + r1.toNat + r2.toNat) % 256 = r3.toNat) :
      EnvMove e (.busReply (.data [r0, r1, r2, r3]))
        { e with meas := .idle, pending := .nothing, block := block }
        [.publish (widenBits e.block.params.floatFmt (BitVec.ofNat 16 (r1.toNat * 256 + r2.toNat)))]
  /-- R116 to R118: a cycle ends with a report. -/
  | endsCycle {ev : EnvEvent} {op : BusOp} {retry : Nat} {block : State} {report : EnvReport}
      (hpending : e.pending = .transfer op) (hop : op.task.logicalOp = .measurement) :
      EnvMove e ev { e with meas := .idle, retry := retry, pending := .nothing, block := block }
        [.report report]
  /-- R119 to R121: setup ends, with or without a report. -/
  | endsSetup {ev : EnvEvent} {op : BusOp} {retry : Nat} {block : State} {reports : List EnvReport}
      (hpending : e.pending = .transfer op) (hop : op.task.logicalOp ≠ .measurement) :
      EnvMove e ev { e with setup := .complete, retry := retry, pending := .nothing, block := block }
        (reports.map .report)

/-- R115: a measurement attempt is its command write and its read. -/
theorem logicalOp_eq_measurement_iff {task : BusTask} :
    task.logicalOp = .measurement ↔ task = .writeMeasure ∨ task = .readMeasure := by
  cases task <;> decide

section

variable {e e' : EnvState} {acts : List EnvAction}

theorem envMove_of_start (h : envStep e .start = .ok (e', acts)) : EnvMove e .start e' acts := by
  obtain ⟨hstart, hrefused⟩ := setupStartsWithReadControl e
  by_cases hsetup : e.setup = .notStarted
  · obtain ⟨b, -, hstep⟩ := hstart hsetup
    rw [hstep] at h
    cases h
    exact .begins (.registerRead hsetup)
  · rw [hrefused hsetup] at h
    cases h

theorem envMove_of_pollTick {elapsedS : Nat} (h : envStep e (.pollTick elapsedS) = .ok (e', acts)) :
    EnvMove e (.pollTick elapsedS) e' acts := by
  by_cases hpoll : e.cfg.pollIntervalS ≤ elapsedS
  · by_cases hidle : e.setup = .complete ∧ e.meas = .idle
    · obtain ⟨hsetup, hmeas⟩ := hidle
      obtain ⟨b, -, hstep⟩ := idleTickSendsTheMeasureCommand e elapsedS hpoll hsetup hmeas
      rw [hstep] at h
      cases h
      exact .begins (.measurement hsetup hmeas)
    · rw [otherTicksAreDropped e elapsedS hpoll (not_and_or.mp hidle)] at h
      cases h
      exact .drops
  · rw [envStep, onPollTick, if_pos (not_le.mp hpoll)] at h
    cases h

theorem envMove_of_timerFired {elapsedMs : Nat}
    (h : envStep e (.timerFired elapsedMs) = .ok (e', acts)) :
    EnvMove e (.timerFired elapsedMs) e' acts := by
  cases hpending : e.pending with
  | nothing | transfer op =>
    rw [envStep, onTimer, hpending] at h
    cases h
  | timer delayMs op =>
    rw [envStep_timerFired hpending] at h
    split at h <;> cases h
    exact .fires hpending

theorem envMove_of_written {task : BusTask} {addr : BitVec 7} {bytes : List Byte}
    (hpending : e.pending = .transfer { task := task, request := .write addr bytes })
    (h : envStep e (.busReply .written) = .ok (e', acts)) :
    EnvMove e (.busReply .written) e' acts := by
  rw [envStep_written hpending] at h
  cases task with
  | writeMeasure =>
    cases h
    exact .awaitsResult hpending
  | writeReadControl =>
    cases h
    exact .awaitsRegister hpending
  | writeControl =>
    rw [afterWrite, startInterval, startWrite_encCalint] at h
    split at h
    · split at h <;> cases h
      exact .begins (.intervalWrite hpending)
    · cases h
      exact .endsSetup (reports := []) hpending nofun
  | writeInterval =>
    cases h
    exact .endsSetup (reports := []) hpending nofun
  | readMeasure | readControl => cases h

theorem envMove_of_measurement {addr : BitVec 7} {r0 r1 r2 r3 : Byte}
    (hpending : e.pending = .transfer { task := .readMeasure, request := .read addr 4 })
    (h : envStep e (.busReply (.data [r0, r1, r2, r3])) = .ok (e', acts)) :
    EnvMove e (.busReply (.data [r0, r1, r2, r3])) e' acts := by
  obtain ⟨b, -, hstep⟩ := measurementResponseEndsTheCycle e addr r0 r1 r2 r3 hpending
  rw [hstep] at h
  cases h
  split
  · exact .endsCycle hpending rfl
  · split
    · exact .endsCycle hpending rfl
    · exact .publishes hpending (by omega) (by omega)

theorem envMove_of_control {addr : BitVec 7} {r0 r1 r2 : Byte}
    (hpending : e.pending = .transfer { task := .readControl, request := .read addr 3 })
    (h : envStep e (.busReply (.data [r0, r1, r2])) = .ok (e', acts)) :
    EnvMove e (.busReply (.data [r0, r1, r2])) e' acts := by
  obtain ⟨b, -, hstep⟩ := controlResponseDecidesSetup e addr r0 r1 r2 hpending
  rw [hstep] at h
  split at h
  · cases h
    exact .endsSetup (reports := [.setupChecksumMismatch]) hpending nofun
  · split at h <;> cases h
    · exact .endsSetup (reports := []) hpending nofun
    · exact .begins (.registerWrite hpending)

/-- R117, R120: only a measurement response of four bytes and a register response of three are taken. -/
theorem envMove_of_data {task : BusTask} {addr : BitVec 7} {bytes : List Byte}
    (hpending : e.pending = .transfer { task := task, request := .read addr bytes.length })
    (h : envStep e (.busReply (.data bytes)) = .ok (e', acts)) :
    EnvMove e (.busReply (.data bytes)) e' acts := by
  have hread := h
  rw [envStep_data hpending rfl] at hread
  unfold afterRead at hread
  split at hread
  · exact envMove_of_measurement hpending h
  · exact envMove_of_control hpending h
  · cases hread

theorem envMove_of_transportError {op : BusOp} {code : Nat} (hpending : e.pending = .transfer op)
    (h : envStep e (.busReply (.transportError code)) = .ok (e', acts)) :
    EnvMove e (.busReply (.transportError code)) e' acts := by
  by_cases hinterval : op.task = .writeInterval
  · rw [envStep_transportError hpending, transportFailed, hinterval] at h
    cases h
    exact .endsSetup (reports := [.intervalWriteFailed]) hpending (by rw [hinterval]; exact nofun)
  · rw [transportFailureIsRetriedToTheCeiling e op code hpending hinterval] at h
    split at h
    · cases h
      exact .retries hpending ‹_›
    · split at h <;> cases h
      · next htask => exact .endsCycle hpending (logicalOp_eq_measurement_iff.mpr htask)
      · next htask =>
        exact .endsSetup (reports := [.setupAbandoned]) hpending
          (mt logicalOp_eq_measurement_iff.mp htask)

theorem envMove_of_busReply {r : BusReply} (h : envStep e (.busReply r) = .ok (e', acts)) :
    EnvMove e (.busReply r) e' acts := by
  cases hpending : e.pending with
  | nothing | timer delayMs op =>
    rw [envStep, hpending] at h
    cases h
  | transfer op =>
    obtain ⟨task, request⟩ := op
    have hreply := h
    rw [envStep_busReply hpending] at hreply
    cases r with
    | transportError code => exact envMove_of_transportError hpending h
    | written =>
      cases request with
      | write addr bytes => exact envMove_of_written hpending h
      | read addr n => cases hreply
    | data bytes =>
      cases request with
      | write addr bytes => cases hreply
      | read addr n =>
        by_cases hlen : bytes.length = n
        · subst hlen
          exact envMove_of_data hpending h
        · cases (if_neg hlen).symm.trans hreply

end

/-- Every accepted event is one of the moves. -/
theorem envMove_of_envStep {e e' : EnvState} {ev : EnvEvent} {acts : List EnvAction}
    (h : envStep e ev = .ok (e', acts)) : EnvMove e ev e' acts := by
  cases ev with
  | start => exact envMove_of_start h
  | pollTick elapsedS => exact envMove_of_pollTick h
  | busReply r => exact envMove_of_busReply h
  | timerFired elapsedMs => exact envMove_of_timerFired h

end Sys2Proof.Machine
end

section

namespace Sys2Proof.Machine

/-! ### The consistency of the environment -/

/-- A measurement's transfers belong to a cycle under way, after setup. -/
theorem progress_of_fits_measurement {op : BusOp} {setup : SetupProgress} {meas : MeasProgress}
    (hfits : op.fits setup meas = true) (hop : op.task.logicalOp = .measurement) :
    setup = .complete ∧ meas ≠ .idle := by
  obtain ⟨task, request⟩ := op
  obtain rfl | rfl := logicalOp_eq_measurement_iff.mp hop <;> cases request <;>
    simp_all [BusOp.fits]

/-- Every other transfer belongs to setup under way, with no cycle. -/
theorem progress_of_fits_setup {op : BusOp} {setup : SetupProgress} {meas : MeasProgress}
    (hfits : op.fits setup meas = true) (hop : op.task.logicalOp ≠ .measurement) :
    (setup = .readingControl ∨ setup = .configuringCalibration) ∧ meas = .idle := by
  obtain ⟨task, request⟩ := op
  cases task <;> cases request <;> simp_all [BusOp.fits, BusTask.logicalOp]

theorem consistent_iff (e : EnvState) :
    e.consistent = true ↔ e.pendingFits = true ∧
      (e.pending = .nothing ∨ e.retry = 0 ∨ e.retry < e.cfg.retryCeiling) := by
  simp [EnvState.consistent, EnvState.retryBounded, or_assoc]

section

variable {e e' : EnvState} {ev : EnvEvent} {acts : List EnvAction} (hfits : e.pendingFits = true)
include hfits

theorem fits_of_transfer {op : BusOp} (h : e.pending = .transfer op) :
    op.fits e.setup e.meas = true := by
  rwa [EnvState.pendingFits, h] at hfits

theorem fits_of_timer {delayMs : Nat} {op : BusOp} (h : e.pending = .timer delayMs op) :
    op.fits e.setup e.meas = true := by
  rwa [EnvState.pendingFits, h] at hfits

theorem meas_eq_idle_of_nothing (h : e.pending = .nothing) : e.meas = .idle := by
  rw [EnvState.pendingFits, h] at hfits
  simp_all

/-- R124: with no machine under way there is no pending work. -/
theorem pending_eq_nothing_of_idle
    (hidle : e.setup = .notStarted ∨ e.setup = .complete ∧ e.meas = .idle) :
    e.pending = .nothing := by
  have hbusy (op : BusOp) (hop : op.fits e.setup e.meas = true) : False := by
    by_cases hmeas : op.task.logicalOp = .measurement
    · obtain ⟨hsetup, hcycle⟩ := progress_of_fits_measurement hop hmeas
      simp_all
    · obtain ⟨hsetup, -⟩ := progress_of_fits_setup hop hmeas
      obtain h | h := hsetup <;> simp_all
  cases hpending : e.pending with
  | nothing => rfl
  | transfer op => exact (hbusy op (fits_of_transfer hfits hpending)).elim
  | timer delayMs op => exact (hbusy op (fits_of_timer hfits hpending)).elim

/-- R115, R125: the write that begins an operation goes with the progress values set at its issue. -/
theorem fits_of_begins {task : BusTask} {setup : SetupProgress} {meas : MeasProgress}
    (h : Begins e ev task setup meas) (addr : BitVec 7) (bytes : List Byte) :
    BusOp.fits { task := task, request := .write addr bytes } setup meas = true := by
  cases h with
  | registerRead hsetup =>
    have hmeas := meas_eq_idle_of_nothing hfits (pending_eq_nothing_of_idle hfits (.inl hsetup))
    simp [BusOp.fits, hmeas]
  | measurement hsetup => simp [BusOp.fits, hsetup]
  | registerWrite hpending =>
    obtain ⟨-, hmeas⟩ := progress_of_fits_setup (fits_of_transfer hfits hpending) nofun
    simp [BusOp.fits, hmeas]
  | intervalWrite hpending => exact (fits_of_transfer hfits hpending :)

/-- R124: an operation begins from nothing pending, or on the reply to the last transfer of another. -/
theorem nothing_or_reply_of_begins {task : BusTask} {setup : SetupProgress} {meas : MeasProgress}
    (h : Begins e ev task setup meas) :
    e.pending = .nothing ∨ ∃ op reply, e.pending = .transfer op ∧ ev = .busReply reply ∧
      op.task.logicalOp ≠ task.logicalOp := by
  cases h with
  | registerRead hsetup => exact .inl (pending_eq_nothing_of_idle hfits (.inl hsetup))
  | measurement hsetup hmeas => exact .inl (pending_eq_nothing_of_idle hfits (.inr ⟨hsetup, hmeas⟩))
  | registerWrite hpending | intervalWrite hpending => exact .inr ⟨_, _, hpending, rfl, nofun⟩

theorem pendingFits_of_envMove (h : EnvMove e ev e' acts) : e'.pendingFits = true := by
  cases h with
  | begins hbegins => exact fits_of_begins hfits hbegins _ _
  | awaitsResult hpending =>
    obtain ⟨hsetup, -⟩ := progress_of_fits_measurement (fits_of_transfer hfits hpending) rfl
    simp [EnvState.pendingFits, BusOp.fits, hsetup]
  | awaitsRegister hpending =>
    simpa [EnvState.pendingFits, BusOp.fits] using fits_of_transfer hfits hpending
  | retries hpending => exact fits_of_transfer hfits hpending
  | fires hpending => exact fits_of_timer hfits hpending
  | drops => exact hfits
  | publishes hpending =>
    obtain ⟨hsetup, -⟩ := progress_of_fits_measurement (fits_of_transfer hfits hpending) rfl
    simp [EnvState.pendingFits, hsetup]
  | endsCycle hpending hop =>
    obtain ⟨hsetup, -⟩ := progress_of_fits_measurement (fits_of_transfer hfits hpending) hop
    simp [EnvState.pendingFits, hsetup]
  | endsSetup hpending hop =>
    obtain ⟨-, hmeas⟩ := progress_of_fits_setup (fits_of_transfer hfits hpending) hop
    simp [EnvState.pendingFits, hmeas]

end

/-- R122, R125(c): a counter under way is 0 or below the ceiling. -/
theorem retry_bounded_of_envMove {e e' : EnvState} {ev : EnvEvent} {acts : List EnvAction}
    (hretry : e.pending = .nothing ∨ e.retry = 0 ∨ e.retry < e.cfg.retryCeiling)
    (h : EnvMove e ev e' acts) :
    e'.pending = .nothing ∨ e'.retry = 0 ∨ e'.retry < e'.cfg.retryCeiling := by
  cases h with
  | begins => exact .inr (.inl rfl)
  | awaitsResult hpending | awaitsRegister hpending | fires hpending =>
    exact .inr (hretry.resolve_left (by rw [hpending]; exact nofun))
  | retries hpending hceiling => exact .inr (.inr hceiling)
  | drops => exact hretry
  | publishes | endsCycle | endsSetup => exact .inl rfl

/-- D21: the configuration is immutable. -/
theorem cfg_of_envMove {e e' : EnvState} {ev : EnvEvent} {acts : List EnvAction}
    (h : EnvMove e ev e' acts) : e'.cfg = e.cfg := by
  cases h <;> rfl

/-! ### The events the collaborators may deliver -/

section

variable {e : EnvState} (hfits : e.pendingFits = true)
include hfits

theorem exists_envStep_written {task : BusTask} {addr : BitVec 7} {bytes : List Byte}
    (hpending : e.pending = .transfer { task := task, request := .write addr bytes })
    (hcfg : e.cfg.wellFormed = true) : ∃ r, envStep e (.busReply .written) = .ok r := by
  have htask := fits_of_transfer hfits hpending
  cases task with
  | writeMeasure | writeReadControl | writeInterval => exact ⟨_, envStep_written hpending⟩
  | writeControl =>
    obtain ⟨hwrite, -⟩ := intervalIsWrittenWhenEnabling
    obtain ⟨hdisable, henable⟩ := hwrite e addr bytes hpending
    cases hcal : e.cfg.calEnable with
    | false => exact ⟨_, hdisable hcal⟩
    | true =>
      obtain ⟨b, -, hstep⟩ := henable hcal (of_decide_eq_true hcfg)
      exact ⟨_, hstep⟩
  | readMeasure | readControl => cases htask

theorem exists_envStep_data {task : BusTask} {addr : BitVec 7} {bytes : List Byte}
    (hpending : e.pending = .transfer { task := task, request := .read addr bytes.length }) :
    ∃ r, envStep e (.busReply (.data bytes)) = .ok r := by
  have htask := fits_of_transfer hfits hpending
  cases task with
  | readMeasure =>
    have hlen : bytes.length = 4 := by simp_all [BusOp.fits]
    obtain ⟨r0, r1, r2, r3, rfl⟩ := List.length_eq_four.mp hlen
    obtain ⟨b, -, hstep⟩ := measurementResponseEndsTheCycle e addr r0 r1 r2 r3 hpending
    exact ⟨_, hstep⟩
  | readControl =>
    have hlen : bytes.length = 3 := by simp_all [BusOp.fits]
    obtain ⟨r0, r1, r2, rfl⟩ := List.length_eq_three.mp hlen
    obtain ⟨b, -, hstep⟩ := controlResponseDecidesSetup e addr r0 r1 r2 hpending
    exact ⟨_, hstep⟩
  | writeMeasure | writeReadControl | writeControl | writeInterval => cases htask

theorem exists_envStep_busReply {r : BusReply} (hcfg : e.cfg.wellFormed = true)
    (habides : EnvEvent.abides e (.busReply r) = true) :
    ∃ res, envStep e (.busReply r) = .ok res := by
  cases hpending : e.pending with
  | nothing | timer delayMs op => simp [EnvEvent.abides, hpending] at habides
  | transfer op =>
    obtain ⟨task, request⟩ := op
    simp only [EnvEvent.abides, hpending] at habides
    cases r with
    | transportError code => exact ⟨_, envStep_transportError hpending code⟩
    | written =>
      cases request with
      | write addr bytes => exact exists_envStep_written hfits hpending hcfg
      | read addr n => cases habides
    | data bytes =>
      cases request with
      | write addr bytes => cases habides
      | read addr n =>
        obtain rfl : bytes.length = n := by simpa using habides
        exact exists_envStep_data hfits hpending

/-- R85, R123: every event within the contract is accepted. -/
theorem exists_envStep_of_abides {ev : EnvEvent} (hcfg : e.cfg.wellFormed = true)
    (habides : ev.abides e = true) : ∃ r, envStep e ev = .ok r := by
  cases ev with
  | start =>
    obtain ⟨hstart, -⟩ := setupStartsWithReadControl e
    obtain ⟨b, -, hstep⟩ := hstart (eq_of_beq habides)
    exact ⟨_, hstep⟩
  | pollTick elapsedS =>
    have hpoll : e.cfg.pollIntervalS ≤ elapsedS := of_decide_eq_true habides
    by_cases hidle : e.setup = .complete ∧ e.meas = .idle
    · obtain ⟨hsetup, hmeas⟩ := hidle
      obtain ⟨b, -, hstep⟩ := idleTickSendsTheMeasureCommand e elapsedS hpoll hsetup hmeas
      exact ⟨_, hstep⟩
    · exact ⟨_, otherTicksAreDropped e elapsedS hpoll (not_and_or.mp hidle)⟩
  | busReply r => exact exists_envStep_busReply hfits hcfg habides
  | timerFired elapsedMs =>
    cases hpending : e.pending with
    | nothing | transfer op => simp [EnvEvent.abides, hpending] at habides
    | timer delayMs op =>
      have hdelay : delayMs ≤ elapsedMs := by simpa [EnvEvent.abides, hpending] using habides
      exact ⟨_, (envStep_timerFired hpending elapsedMs).trans (if_pos hdelay)⟩

end

end Sys2Proof.Machine
end

/-! ### The obligations of the exceptions family: all events -/

section

open Sys2Proof Sys2Proof.Machine

/-- Settles O52: both halves of consistency are kept by every move. -/
theorem eventsKeepTheEnvironmentConsistent : Obligations.EventsKeepTheEnvironmentConsistent := by
  intro e e' ev acts hconsistent hstep
  obtain ⟨hfits, hretry⟩ := (consistent_iff e).mp hconsistent
  have hmove := envMove_of_envStep hstep
  exact (consistent_iff e').mpr
    ⟨pendingFits_of_envMove hfits hmove, retry_bounded_of_envMove hretry hmove⟩

/-- Settles O54: progress by the kind of the event, preservation by O52. -/
theorem noAdmittedEventIsFatal : Obligations.NoAdmittedEventIsFatal := by
  intro e ev hconsistent hcfg habides
  obtain ⟨hfits, -⟩ := (consistent_iff e).mp hconsistent
  obtain ⟨⟨e', acts⟩, hstep⟩ := exists_envStep_of_abides hfits hcfg habides
  exact ⟨e', acts, hstep, eventsKeepTheEnvironmentConsistent e e' ev acts hconsistent hstep,
    cfg_of_envMove (envMove_of_envStep hstep)⟩

/-- Settles O55: the moves that set Setup Progress are the start, which finds it NotStarted, the patched
write, which finds ReadingControl, and the end of setup. -/
theorem setupProgressIsWriteOnce : Obligations.SetupProgressIsWriteOnce := by
  intro e e' ev acts hconsistent hstep
  obtain ⟨hfits, -⟩ := (consistent_iff e).mp hconsistent
  cases envMove_of_envStep hstep with
  | begins hbegins =>
    cases hbegins with
    | registerRead hsetup => exact ⟨fun h => (nomatch hsetup.symm.trans h), fun _ => nofun⟩
    | registerWrite hpending =>
      obtain ⟨hsetup, -⟩ := progress_of_fits_setup (fits_of_transfer hfits hpending) nofun
      exact ⟨fun h => by simp [h] at hsetup, fun _ => nofun⟩
    | measurement | intervalWrite => exact ⟨id, id⟩
  | endsSetup => exact ⟨fun _ => rfl, fun _ => nofun⟩
  | awaitsResult | awaitsRegister | retries | fires | drops | publishes | endsCycle => exact ⟨id, id⟩

/-- Settles O56: only a beginning operation and a fired timer issue a transfer. -/
theorem atMostOneTransferInFlight : Obligations.AtMostOneTransferInFlight := by
  intro e e' ev acts r hconsistent hstep hmem
  obtain ⟨hfits, -⟩ := (consistent_iff e).mp hconsistent
  cases envMove_of_envStep hstep with
  | begins hbegins =>
    cases List.mem_singleton.mp hmem
    refine ⟨rfl, ⟨_, rfl, rfl⟩, fun op hop => ?_⟩
    obtain hnothing | ⟨_, reply, -, hreply, -⟩ := nothing_or_reply_of_begins hfits hbegins
    · cases hnothing.symm.trans hop
    · exact ⟨reply, hreply⟩
  | fires hpending =>
    cases List.mem_singleton.mp hmem
    exact ⟨rfl, ⟨_, rfl, rfl⟩, fun op hop => by cases hpending.symm.trans hop⟩
  | awaitsResult | awaitsRegister | retries | drops | publishes | endsCycle | endsSetup =>
    simp at hmem

/-- Settles O57: one move alone publishes. -/
theorem onlyValidatedReadingsArePublished : Obligations.OnlyValidatedReadingsArePublished := by
  intro e e' ev acts f hstep hmem
  cases envMove_of_envStep hstep with
  | publishes hpending hready hsum =>
    cases List.mem_singleton.mp hmem
    exact ⟨_, _, _, _, rfl, hready, hsum, rfl⟩
  | begins | awaitsResult | awaitsRegister | retries | fires | drops | endsCycle | endsSetup =>
    simp at hmem

/-- Settles O58: a beginning operation is another than the one pending before, and every other move
that leaves work pending keeps to its operation. -/
theorem retryCounterSpansTheLogicalOperation : Obligations.RetryCounterSpansTheLogicalOperation := by
  intro e e' ev acts op' hconsistent hstep hop'
  obtain ⟨hfits, -⟩ := (consistent_iff e).mp hconsistent
  cases envMove_of_envStep hstep with
  | begins hbegins =>
    cases hop'
    refine ⟨fun op hop hsame => ?_, fun _ => rfl⟩
    obtain hnothing | ⟨op, reply, hpending, -, hother⟩ := nothing_or_reply_of_begins hfits hbegins
    · rw [hnothing] at hop
      cases hop
    · rw [hpending] at hop
      cases hop
      exact absurd hsame hother
  | awaitsResult hpending | awaitsRegister hpending | fires hpending =>
    cases hop'
    exact ⟨fun _ _ _ => ⟨nofun, fun _ => rfl⟩,
      fun hnew => (hnew _ (congrArg Pending.operation hpending) rfl).elim⟩
  | drops => exact ⟨fun _ _ _ => ⟨nofun, fun _ => rfl⟩, fun hnew => absurd rfl (hnew _ hop')⟩
  | retries hpending =>
    cases hop'
    exact ⟨fun _ _ _ => ⟨fun _ _ => rfl, fun hother => absurd rfl (hother _)⟩,
      fun hnew => (hnew _ (congrArg Pending.operation hpending) rfl).elim⟩
  | publishes | endsCycle | endsSetup => cases hop'

end

section

namespace Sys2Proof.Machine

/-! ### The outcome table -/

theorem outcome_eval_mem_allowedOutcomes (fmt : FloatFmt) (v : Invocation) :
    (v.eval.toOut fmt).outcome ∈ allowedOutcomes v.instr := by
  cases v with
  | valChk data chk | valFrame data chk =>
    cases h : decide (truncatedSum data = chk) <;>
      simp [Invocation.eval, Result.toOut, Invocation.instr, allowedOutcomes, h]
  | decMeas status concHigh concLow chk =>
    simp only [Invocation.eval, Result.toOut]
    cases measResult status concHigh concLow chk <;>
      simp [MeasResult.toOut, Invocation.instr, allowedOutcomes]
  | decCtrl reg0 reg1 chk =>
    simp only [Invocation.eval, Result.toOut]
    cases ctrlResult reg0 reg1 chk <;> simp [CtrlResult.toOut, Invocation.instr, allowedOutcomes]
  | csumStep | csumGen | encBuild3 | encBuild4 | encMeas | encRdctrl | encWrctrl | encWrctrlp
  | encCalint | decWiden => exact List.mem_cons_self

/-- R104: a malformed invocation is one of an operation whose row lists `ILLEGAL`. -/
theorem illegal_mem_allowedOutcomes {i : Instr} {bufMax len : Nat}
    (h : i = .reserved0 ∨ i = .reservedF ∨ i.lenAdmitted bufMax len = false) :
    .illegal ∈ allowedOutcomes i := by
  rw [lenAdmitted_eq_false_iff] at h
  obtain rfl | rfl | ⟨rfl | rfl | rfl, -⟩ | ⟨rfl, -⟩ | ⟨rfl, -⟩ | ⟨rfl, -⟩ := h <;> decide

theorem outcome_functionLevelOut_mem_allowedOutcomes (i : Instr) (s : State) :
    (functionLevelOut s.params (placeOp s (encodeOp i)).inp).outcome ∈ allowedOutcomes i := by
  cases hports : Invocation.ofPorts s.params (placeOp s (encodeOp i)).inp with
  | none =>
    rw [functionLevelOut_of_ofPorts_eq_none hports]
    exact illegal_mem_allowedOutcomes ((ofPorts_placeOp_eq_none_iff i s).mp hports)
  | some v =>
    have hinstr : v.instr = i := by simpa using instr_of_ofPorts hports
    rw [functionLevelOut, hports, ← hinstr]
    exact outcome_eval_mem_allowedOutcomes _ v

/-- The length of a well-formed response: three bytes for DEC.CTRL, four for the others. -/
def responseLen (i : Instr) : Nat := if i = .decCtrl then 3 else 4

/-- Input ports on which each operation gives the outcome, when its row of the table lists it: a ready
response whose bytes sum to the 0 after them; one of zeros; a ready one whose sum is 1; a `len` above
`BUF_MAX`. -/
def outcomeExample (i : Instr) : OutcomeCode → InPorts
  | .ok => { InPorts.reset with len := responseLen i, buf := [0x01, 0xFF, 0x00, 0x00, 0x00] }
  | .notReady => { InPorts.reset with len := responseLen i }
  | .checksumMismatch =>
    { InPorts.reset with len := responseLen i, buf := [0x01, 0x00, 0x00, 0x00, 0x00] }
  | .illegal => { InPorts.reset with len := 6 }

theorem outcome_of_outcomeExample (i : Instr) :
    ∀ c ∈ allowedOutcomes i,
      (functionLevelOut Params.standard { outcomeExample i c with op := encodeOp i }).outcome = c := by
  cases i <;> decide

end Sys2Proof.Machine
end

/-! ### The obligations of the exceptions family: the outcomes -/

section

open Sys2Proof Sys2Proof.Machine

/-- Settles O13: each listed outcome has its example, and a function-level result has an outcome of its
operation's row. -/
theorem outcomesAreThoseOfTheTable : Obligations.OutcomesAreThoseOfTheTable := by
  intro i c
  constructor
  · intro hc
    exact ⟨presentInputs State.reset (outcomeExample i c), _, exec_eq_answer_functionLevelOut i _,
      outcome_of_outcomeExample i c hc⟩
  · rintro ⟨s, t, ht, rfl⟩
    rw [(exec_eq_next_iff i s t).mp ht]
    exact outcome_functionLevelOut_mem_allowedOutcomes i s

/-- Settles O7: a 2-bit port holds four values. -/
theorem outcomeCodesOnThePort : Obligations.OutcomeCodesOnThePort := by
  have hports : ∀ w : BitVec 2, w = 0 ∨ w = 1 ∨ w = 2 ∨ w = 3 := by decide
  refine ⟨rfl, rfl, rfl, rfl, fun w => ?_⟩
  obtain rfl | rfl | rfl | rfl := hports w
  · exact ⟨.ok, rfl⟩
  · exact ⟨.notReady, rfl⟩
  · exact ⟨.checksumMismatch, rfl⟩
  · exact ⟨.illegal, rfl⟩

end

/-! PROOFS. The reset and hazards family: the environment's start state (R131). -/

section

open Sys2Proof Sys2Proof.Machine

/-- Settles O53: at boot no work is pending, and with none pending consistency asks only that setup is not
under way and no cycle is begun. -/
theorem bootIsConsistent : Obligations.BootIsConsistent := by
  intro cfg block
  have hpending : (EnvState.boot cfg block).pending = .nothing := rfl
  have hfits : (EnvState.boot cfg block).pendingFits = true := rfl
  exact ⟨(consistent_iff _).mpr ⟨hfits, .inl hpending⟩, rfl, rfl, rfl⟩

end
